-- ==== Sys2Proof/Word.lean ====
section
/-! DEFINITION. The word types of the block (30_encoding.md R70, 10_state.md R20 and R34). -/

namespace Sys2Proof

/-- A 32-bit register value (10_state.md R34); also the home of the W-bit words ACC, INC and OFF. -/
abbrev Word := BitVec 32

/-- A 64-bit transaction word, the spelling of one event (30_encoding.md R70). -/
abbrev TW := BitVec 64

/-- A register's byte offset (20_memory.md R50). -/
abbrev Offset := BitVec 8

/-- A sample: an A-bit unsigned value, A at most 16, with the bits above A zero (00_scope.md R7). -/
abbrev Sample := BitVec 16

end Sys2Proof
end

