-- ==== Sys2Proof/Config.lean ====
section
/-! DEFINITION. The build-time configuration of 00_scope.md R7. The values of REF, the derived constants and the legal
ranges are in Machine/Params.lean. -/

namespace Sys2Proof

/-- The parameters of 00_scope.md R7, fixed at build time. INTERP is in {0, 1}, hence a Bool; INIT_FREQ and INIT_PHASE
take every 32-bit value. -/
structure Config where
  /-- `W`, the phase-word width in bits. -/
  w : Nat
  /-- `N`, the number of waveform table entries. -/
  n : Nat
  /-- `A`, the sample width in bits. -/
  a : Nat
  /-- `SR`, the sample rate in Hz. -/
  sr : Nat
  /-- `INTERP`: linear interpolation on. -/
  interp : Bool
  /-- `TABLE`, the contents of the waveform ROM (10_state.md R31). -/
  table : List Sample
  /-- `INIT_FREQ`, the frequency code (UQ24.8 Hz) that INIT loads. -/
  initFreq : Word
  /-- `INIT_PHASE`, the phase code (SQ15.16 degrees) that INIT loads. -/
  initPhase : Word
deriving DecidableEq, Repr

end Sys2Proof
end

