-- ==== Sys2Proof/Machine/Params.lean ====
section
/-! DEFINITION. Constants derived from the configuration (00_scope.md R9), its legal ranges (R7, R8) and the reference
configuration REF (R7, 40_table_and_angle.md R102). -/

namespace Sys2Proof.Config

/-! ## Derived constants (00_scope.md R9) -/

/-- `P` = 2^W, the phase modulus. -/
def phaseMod (c : Config) : Nat := 2 ^ c.w

/-- `AMAX` = 2^A - 1. -/
def amax (c : Config) : Nat := 2 ^ c.a - 1

/-- `FSCALE` = SR × 256. -/
def fscale (c : Config) : Nat := c.sr * 256

/-- `FMIN` = ceil(SR × 256 / (2 × N)). -/
def fmin (c : Config) : Nat := (c.sr * 256 + 2 * c.n - 1) / (2 * c.n)

/-- `FMAX` = SR × 128. -/
def fmax (c : Config) : Nat := c.sr * 128

/-- `DEG360` = 360 × 2^16, one full turn in phase-code units. -/
def deg360 : Nat := 23592960

/-! ## Legality (00_scope.md R7, R8) -/

/-- Four entries below `b`. -/
def fourBelow (b : Nat) (t u v x : Sample) : Bool :=
  decide (t.toNat < b) && decide (u.toNat < b) && decide (v.toNat < b) && decide (x.toNat < b)

/-- The list has `n` entries, each below `b`. It takes four entries at a time only to keep its evaluation shallow. -/
def tableFits (b : Nat) : Nat → List Sample → Bool
  | n + 4, t :: u :: v :: x :: rest => fourBelow b t u v x && tableFits b n rest
  | n + 1, t :: rest => decide (t.toNat < b) && tableFits b n rest
  | 0, [] => true
  | _, _ => false

/-- TABLE has N entries of A bits. -/
def tableLegal (c : Config) : Bool := tableFits (2 ^ c.a) c.n c.table

/-- Every parameter is in its legal range (00_scope.md R7). -/
def legal (c : Config) : Bool :=
  decide (1 ≤ c.w) && decide (c.w ≤ 32) && decide (2 ≤ c.n) && decide (c.n ≤ 65536) && decide (1 ≤ c.a) &&
    decide (c.a ≤ 16) && decide (1 ≤ c.sr) && decide (c.sr ≤ 2 ^ 24 - 1) && c.tableLegal

/-! ## REF -/

/-- Rows 0 to 7 of the listing of 40_table_and_angle.md R102. -/
def refTableLow : List Sample :=
  [128, 131, 134, 137, 140, 144, 147, 150, 153, 156, 159, 162, 165, 168, 171, 174] ++ (
  [177, 179, 182, 185, 188, 191, 193, 196, 199, 201, 204, 206, 209, 211, 213, 216] ++ (
  [218, 220, 222, 224, 226, 228, 230, 232, 234, 235, 237, 239, 240, 241, 243, 244] ++ (
  [245, 246, 248, 249, 250, 250, 251, 252, 253, 253, 254, 254, 254, 255, 255, 255] ++ (
  [255, 255, 255, 255, 254, 254, 254, 253, 253, 252, 251, 250, 250, 249, 248, 246] ++ (
  [245, 244, 243, 241, 240, 239, 237, 235, 234, 232, 230, 228, 226, 224, 222, 220] ++ (
  [218, 216, 213, 211, 209, 206, 204, 201, 199, 196, 193, 191, 188, 185, 182, 179] ++ (
  [177, 174, 171, 168, 165, 162, 159, 156, 153, 150, 147, 144, 140, 137, 134, 131])))))))

/-- Rows 8 to 15 of the listing of 40_table_and_angle.md R102. -/
def refTableHigh : List Sample :=
  [128, 125, 122, 119, 116, 112, 109, 106, 103, 100, 97, 94, 91, 88, 85, 82] ++ (
  [79, 77, 74, 71, 68, 65, 63, 60, 57, 55, 52, 50, 47, 45, 43, 40] ++ (
  [38, 36, 34, 32, 30, 28, 26, 24, 22, 21, 19, 17, 16, 15, 13, 12] ++ (
  [11, 10, 8, 7, 6, 6, 5, 4, 3, 3, 2, 2, 2, 1, 1, 1] ++ (
  [1, 1, 1, 1, 2, 2, 2, 3, 3, 4, 5, 6, 6, 7, 8, 10] ++ (
  [11, 12, 13, 15, 16, 17, 19, 21, 22, 24, 26, 28, 30, 32, 34, 36] ++ (
  [38, 40, 43, 45, 47, 50, 52, 55, 57, 60, 63, 65, 68, 71, 74, 77] ++ (
  [79, 82, 85, 88, 91, 94, 97, 100, 103, 106, 109, 112, 116, 119, 122, 125])))))))

/-- The reference contents of the ROM (40_table_and_angle.md R102). -/
def refTable : List Sample := refTableLow ++ refTableHigh

/-- REF, the reference configuration (00_scope.md R7, the column "REF value"). -/
def ref : Config where
  w := 16
  n := 256
  a := 8
  sr := 200000
  interp := true
  table := refTable
  initFreq := 10240000
  initPhase := 0

end Sys2Proof.Config
end

