-- ==== Sys2Proof/Machine/State.lean ====
section
/-! DEFINITION. The state of one block instance (10_state.md R20), the reset state (R46), and the reasons a step stops. -/

namespace Sys2Proof.Machine

/-- LIFE (10_state.md R27). -/
inductive Life where
  | uninit
  | stopped
  | running
deriving DecidableEq, Repr

/-- The response of a bus transaction (00_scope.md R11, `respond`). -/
inductive Resp where
  | ok
  | err
deriving DecidableEq, Repr

/-- The output sink's channels (42_tick.md R146, decision D15): A is id 0, B is id 1. -/
inductive Channel where
  | chA
  | chB
deriving DecidableEq, Repr

/-- What the outside world sees of an event: the response that ends a bus transaction, with its 32 bits of read data
(00_scope.md R11, `respond`), or one write to the output sink (`SinkWrite`, 42_tick.md R146). -/
inductive Observation where
  | response (r : Resp) (d : Word)
  | sinkWrite (ch : Channel) (v : Sample)
deriving DecidableEq, Repr

/-- The errors of 60_exceptions.md R211 to R214. -/
inductive ErrorCode where
  /-- E_NOTINIT, code 1. -/
  | notInit
  /-- E_STATE, code 2. -/
  | state
  /-- E_CMD, code 3. -/
  | cmd
  /-- E_ADDR, code 4. -/
  | addr
deriving DecidableEq, Repr

/-- Reasons a step stops the machine. The spec gives the block none: every event completes (42_tick.md R148,
60_exceptions.md R210). -/
inductive Fault where
  /-- Raised by TICK alone, when ACC lies outside [0, 2^W) or TABLE has fewer than N entries and the sample needs a ROM
  entry that does not exist (20_memory.md R51). No state of the invariant of Safety.lean does so. SAFE: the model stops. -/
  | romIndex
deriving DecidableEq, Repr

/-- Reasons the model gives no meaning. -/
inductive Refusal where
  /-- Raised by an arm of `exec` whose instruction has no meaning yet. SAFE. No arm is left so. -/
  | notModelled (mnemonic : String)
  /-- Raised by `step` under a configuration outside the ranges of 00_scope.md R7, before any event (R8). SAFE. -/
  | illegalConfiguration
  /-- Raised by `step` on a word with RSV not 0: no event (30_encoding.md R76, MALFORMED_RSV). SAFE. -/
  | malformedRsv
  /-- Raised by `step` on a TICK or RESET word with ADDR or DATA not 0 (R76, MALFORMED_EVENT). SAFE. -/
  | malformedEvent
  /-- Raised by `step` on a bus read word with DATA not 0 (R76, MALFORMED_READ). SAFE. -/
  | malformedRead
deriving DecidableEq, Repr

/-- The state of one instance: the elements of 10_state.md R20; the configuration, which R20 calls a parameter of the
step and which the host's one-argument step makes travel here, constant (log 1); and the model's own `events` and `trace`
(log 3, log 5). ACC, INC and OFF are W-bit words in 32 bits, OUT_A and OUT_B A-bit values in 16 (log 6). -/
structure State where
  /-- The configuration, TABLE among it; no event writes it (20_memory.md R52). -/
  cfg : Config
  /-- ACC, the phase accumulator (R23). -/
  acc : Word
  /-- INC, the frequency increment (R24). -/
  inc : Word
  /-- OFF, the phase offset (R25). -/
  off : Word
  /-- LIFE (R27). -/
  life : Life
  /-- FREQ_REQ, the requested frequency code (R26). -/
  freqReq : Word
  /-- PHASE_REQ, the requested phase code (R28). -/
  phaseReq : Word
  /-- E_NOTINIT, sticky (R29). -/
  eNotInit : Bool
  /-- E_STATE, sticky (R29). -/
  eState : Bool
  /-- E_CMD, sticky (R29). -/
  eCmd : Bool
  /-- E_ADDR, sticky (R29). -/
  eAddr : Bool
  /-- OUT_A (R30). -/
  outA : Sample
  /-- OUT_B (R30). -/
  outB : Sample
  /-- The model's own: what the block has answered so far, oldest first. -/
  trace : List Observation
  /-- The model's own: the transaction words still to come, next first. -/
  events : List TW
deriving DecidableEq, Repr

/-- The outcome of a meaning and of a step. -/
abbrev Result := Host.Outcome State Fault Refusal

/-- The state after power-on of a block built with configuration `c` (10_state.md R46, 70_reset_and_hazards.md R240).
`trace` and `events` empty: DESIGN CHOICE (log 3, log 5). -/
def State.resetOf (c : Config) : State where
  cfg := c
  acc := 0
  inc := 0
  off := 0
  life := .uninit
  freqReq := 0
  phaseReq := 0
  eNotInit := false
  eState := false
  eCmd := false
  eAddr := false
  outA := 0
  outB := 0
  trace := []
  events := []

/-- The reset state of the reference configuration REF (00_scope.md R7). DESIGN CHOICE (log 2): the spec gives the
parameters' values for REF only. -/
def State.reset : State := State.resetOf Config.ref

end Sys2Proof.Machine
end

