-- ==== Sys2Proof/Machine/Operands.lean ====
section
/-! DEFINITION. The arithmetic primitives of 00_scope.md R11 and the operands of 30_encoding.md R75. -/

namespace Sys2Proof.Machine

/-! ## Primitives (00_scope.md R11). `a div b` and `a mod b` for b > 0 are Lean's `/` and `%` on Nat and on Int, which
round toward minus infinity and are Euclidean. -/

/-- `rhu(a, b)`: round half up of a / b, (2a + b) div (2b). The sum stands as b + 2a so that, with a constant b and an
unknown a, the kernel does not count the constant down when it compares two states. -/
def rhu (a b : Nat) : Nat := (b + 2 * a) / (2 * b)

/-- `clamp(v, lo, hi)` = min(max(v, lo), hi) on codes. -/
def clampNat (v lo hi : Nat) : Nat := min (max v lo) hi

/-- `clamp(v, lo, hi)` = min(max(v, lo), hi) on integers. -/
def clampInt (v lo hi : Int) : Int := min (max v lo) hi

/-! ## Operands of the register writes (30_encoding.md R75) -/

/-- STATUS: the clear mask m = DATA[11:8]. -/
def clearMask (data : Word) : BitVec 4 := data.extractLsb' 8 4

/-- FREQ: c = DATA[31:0], zero-extended. -/
def freqOperand (data : Word) : Nat := data.toNat

/-- PHASE: D = sext_32(DATA[31:0]). -/
def phaseOperand (data : Word) : Int := data.toInt

end Sys2Proof.Machine
end

