-- ==== Sys2Proof/Machine/Angle.lean ====
section
/-! DEFINITION. The waveform ROM, angle arithmetic and interpolation (40_table_and_angle.md R100 to R110): pure functions
of the configuration and a phase word. -/

namespace Sys2Proof.Machine

/-- `PhaseAdd(a, b)` = (a + b) mod 2^W (R103). -/
def phaseAdd (c : Config) (a b : Word) : Word := BitVec.ofNat 32 ((a.toNat + b.toNat) % 2 ^ c.w)

/-- The table index of `Decompose(p)`: (p × N) div 2^W (R104). -/
def phaseIndex (c : Config) (p : Word) : Nat := p.toNat * c.n / 2 ^ c.w

/-- The fractional weight of `Decompose(p)`: (p × N) mod 2^W (R104). -/
def phaseFrac (c : Config) (p : Word) : Nat := p.toNat * c.n % 2 ^ c.w

/-- `MemRead(i, 1)`: TABLE[i] (20_memory.md R51); `none` where there is no such entry. -/
def romRead (c : Config) (i : Nat) : Option Sample := c.table[i]?

/-- The index of the neighbour: entry N - 1 wraps to entry 0 (R101, R107). -/
def nextIndex (c : Config) (i : Nat) : Nat := (i + 1) % c.n

/-- `Clamp(v)` = clamp(v, 0, AMAX) (R108). -/
def clampSample (c : Config) (v : Int) : Sample := BitVec.ofNat 16 (clampInt v 0 c.amax).toNat

/-- The blend of two neighbouring entries: y0 + (((y1 - y0) × frac) div 2^W), the division rounding toward minus infinity
(R107). -/
def blend (c : Config) (y0 y1 : Int) (frac : Nat) : Int := y0 + (y1 - y0) * (frac : Int) / (2 ^ c.w : Int)

/-- `Sample(p)` with INTERP = 0: the nearest-lower entry (R106). -/
def sampleNearest (c : Config) (p : Word) : Option Sample :=
  match romRead c (phaseIndex c p) with
  | some y0 => some (clampSample c y0.toNat)
  | none => none

/-- `Sample(p)` with INTERP = 1: the linear interpolator (R107). -/
def sampleLinear (c : Config) (p : Word) : Option Sample :=
  match romRead c (phaseIndex c p), romRead c (nextIndex c (phaseIndex c p)) with
  | some y0, some y1 => some (clampSample c (blend c y0.toNat y1.toNat (phaseFrac c p)))
  | _, _ => none

/-- `Sample(p)` (R106, R107). -/
def sample (c : Config) (p : Word) : Option Sample :=
  if c.interp then sampleLinear c p else sampleNearest c p

end Sys2Proof.Machine
end

