-- ==== Sys2Proof/Machine/Convert.lean ====
section
/-! DEFINITION. Frequency and phase conversion (41_conversion.md R120 to R125): exact, rounded once at the end. -/

namespace Sys2Proof.Machine

/-- `ClampFreq(c)` = clamp(c, FMIN, FMAX) (R121). -/
def clampFreq (cfg : Config) (c : Nat) : Nat := clampNat c cfg.fmin cfg.fmax

/-- The increment before its clamp: rhu(c × 2^W, SR × 256) (R122, `raw`). -/
def rawInc (cfg : Config) (c : Nat) : Nat := rhu (c * cfg.phaseMod) cfg.fscale

/-- `FreqToInc(c)`: `raw` clamped to [1, 2^W - 1] (R122). -/
def freqToInc (cfg : Config) (c : Nat) : Nat := clampNat (rawInc cfg c) 1 (cfg.phaseMod - 1)

/-- `IncToFreq(inc)` = rhu(inc × SR × 256, 2^W), the achieved frequency as a UQ24.8 code (R123). -/
def incToFreq (cfg : Config) (inc : Nat) : Nat := rhu (inc * cfg.fscale) cfg.phaseMod

/-- `NormPhase(D)` = D mod DEG360, Euclidean (R124). -/
def normPhase (d : Int) : Nat := (d % (Config.deg360 : Int)).toNat

/-- `PhaseToOff(Dn)` = rhu(Dn × 2^W, DEG360) mod 2^W (R125). -/
def phaseToOff (cfg : Config) (dn : Nat) : Nat := rhu (dn * cfg.phaseMod) Config.deg360 % cfg.phaseMod

end Sys2Proof.Machine
end

