-- ==== Sys2Proof/Machine/Flags.lean ====
section
/-! DEFINITION. The STATUS register and the sticky error bits (10_state.md R29, R36; 43_control.md R169, R170), and the
words of the other constant registers (R43 to R45). There are no condition codes (R33). -/

namespace Sys2Proof.Machine

/-- STATUS.INIT: LIFE is STOPPED or RUNNING (R36). -/
def statusInit (s : State) : Bool := decide (s.life ≠ .uninit)

/-- STATUS.RUN: LIFE is RUNNING (R36). -/
def statusRun (s : State) : Bool := decide (s.life = .running)

/-- The word a read of STATUS returns: {20'b0, E_ADDR, E_CMD, E_STATE, E_NOTINIT, 6'b0, RUN, INIT} (R169). -/
def statusWord (s : State) : Word :=
  0#20 ++ BitVec.ofBool s.eAddr ++ BitVec.ofBool s.eCmd ++ BitVec.ofBool s.eState ++ BitVec.ofBool s.eNotInit ++ 0#6 ++
    BitVec.ofBool (statusRun s) ++ BitVec.ofBool (statusInit s)

/-- The sticky bit of an error becomes 1 (R29). -/
def setError : ErrorCode → State → State
  | .notInit, s => { s with eNotInit := true }
  | .state, s => { s with eState := true }
  | .cmd, s => { s with eCmd := true }
  | .addr, s => { s with eAddr := true }

/-- Write-1-to-clear with the mask m (R170): m[0] E_NOTINIT, m[1] E_STATE, m[2] E_CMD, m[3] E_ADDR. -/
def clearErrors (m : BitVec 4) (s : State) : State :=
  { s with
    eNotInit := s.eNotInit && !m.getLsbD 0
    eState := s.eState && !m.getLsbD 1
    eCmd := s.eCmd && !m.getLsbD 2
    eAddr := s.eAddr && !m.getLsbD 3 }

/-- The word of CONFIG: {15'b0, INTERP, 3'b0, A[4:0], 2'b0, W[5:0]} (R43, R171). -/
def configWord (c : Config) : Word :=
  0#15 ++ BitVec.ofBool c.interp ++ 0#3 ++ BitVec.ofNat 5 c.a ++ 0#2 ++ BitVec.ofNat 6 c.w

/-- The word of TABLE_SIZE: zext_32(N) (R44, R172). -/
def tableSizeWord (c : Config) : Word := 0#15 ++ BitVec.ofNat 17 c.n

/-- The word of SAMPLE_RATE: zext_32(SR) (R45, R173). -/
def sampleRateWord (c : Config) : Word := 0#8 ++ BitVec.ofNat 24 c.sr

end Sys2Proof.Machine
end

