-- ==== Sys2Proof/Machine/Ops.lean ====
section
/-! DEFINITION. The shared operations of the meanings: answering a bus transaction, raising an error, the lifecycle gate,
the writes of the engine's registers, and the sink. -/

namespace Sys2Proof.Machine

/-! ## Answering and raising (00_scope.md R11) -/

/-- `respond(r, d)`: end the bus transaction with response r and read data d. A bus write answers with d = 0 (R11's
primitive; 30_encoding.md R71 says a write returns no data: DEDUCED, log 13). -/
def respond (r : Resp) (d : Word) (s : State) : State :=
  { s with trace := s.trace ++ [.response r d] }

/-- `raise E()`: the sticky bit, the response (ERR, 0), no other change (R11; 60_exceptions.md R210). This is all there is
of exception entry: nothing is saved, nothing is vectored, and there is no return (R220, R221). -/
def raise (e : ErrorCode) (s : State) : State := respond .err 0 (setError e s)

/-- The lifecycle check of a control operation (43_control.md R160, R175): E_NOTINIT while UNINIT. -/
def ifInitialised (s t : State) : State :=
  match s.life with
  | .uninit => raise .notInit s
  | .stopped => t
  | .running => t

/-- A read of a register that is legal only when initialised. -/
def readGated (d : Word) (s : State) : State := ifInitialised s (respond .ok d s)

/-! ## Writes of the engine's registers -/

/-- FREQ_REQ and INC from a frequency code c (43_control.md R161). -/
def loadFreq (c : Nat) (s : State) : State :=
  { s with
    freqReq := BitVec.ofNat 32 (clampFreq s.cfg c)
    inc := BitVec.ofNat 32 (freqToInc s.cfg (clampFreq s.cfg c)) }

/-- PHASE_REQ and OFF from a signed phase code D (43_control.md R163). -/
def loadPhase (d : Int) (s : State) : State :=
  { s with
    phaseReq := BitVec.ofNat 32 (normPhase d)
    off := BitVec.ofNat 32 (phaseToOff s.cfg (normPhase d)) }

/-- ACC, INC, OFF, FREQ_REQ and PHASE_REQ to 0 and LIFE to UNINIT (44_lifecycle.md R193, and part of R196). -/
def releaseEngine (s : State) : State :=
  { s with acc := 0, inc := 0, off := 0, freqReq := 0, phaseReq := 0, life := .uninit }

/-- LIFE ← l. -/
def setLife (l : Life) (s : State) : State := { s with life := l }

/-! ## The tick path (42_tick.md R140) -/

/-- The two sink writes, channel A then channel B, and OUT_A and OUT_B (R146, R147). -/
def emitSamples (va vb : Sample) (s : State) : State :=
  { s with outA := va, outB := vb, trace := s.trace ++ [.sinkWrite .chA va, .sinkWrite .chB vb] }

/-- ACC ← PhaseAdd(ACC, INC) (R145). -/
def advance (s : State) : State := { s with acc := phaseAdd s.cfg s.acc s.inc }

end Sys2Proof.Machine
end

