-- ==== Sys2Proof/Machine/Control.lean ====
section
/-! DEFINITION. Register reads and writes (43_control.md R161 to R175). -/

namespace Sys2Proof.Machine

/-- WR_STATUS (R170). -/
def execWrStatus (data : Word) (s : State) : Result := .next (respond .ok 0 (clearErrors (clearMask data) s))

/-- WR_FREQ (R161). -/
def execWrFreq (data : Word) (s : State) : Result :=
  .next (ifInitialised s (respond .ok 0 (loadFreq (freqOperand data) s)))

/-- WR_PHASE (R163). -/
def execWrPhase (data : Word) (s : State) : Result :=
  .next (ifInitialised s (respond .ok 0 (loadPhase (phaseOperand data) s)))

/-- WR_ILLEGAL (R174): E_ADDR in every state, whatever the offset and the data. -/
def execWrIllegal (_addr : Offset) (_data : Word) (s : State) : Result := .next (raise .addr s)

/-- RD_STATUS (R169): legal in every state; reading does not clear. -/
def execRdStatus (s : State) : Result := .next (respond .ok (statusWord s) s)

/-- RD_FREQ (R162): FREQ_REQ. -/
def execRdFreq (s : State) : Result := .next (readGated s.freqReq s)

/-- RD_PHASE (R164): PHASE_REQ. -/
def execRdPhase (s : State) : Result := .next (readGated s.phaseReq s)

/-- RD_INC (R165): zext_32(INC). -/
def execRdInc (s : State) : Result := .next (readGated s.inc s)

/-- RD_OFFSET (R166): zext_32(OFF). -/
def execRdOffset (s : State) : Result := .next (readGated s.off s)

/-- RD_ACC (R167): zext_32(ACC). -/
def execRdAcc (s : State) : Result := .next (readGated s.acc s)

/-- RD_FREQ_ACH (R168): IncToFreq(INC), computed when read. -/
def execRdFreqAch (s : State) : Result :=
  .next (readGated (BitVec.ofNat 32 (incToFreq s.cfg s.inc.toNat)) s)

/-- RD_CONFIG (R171): legal in every state. -/
def execRdConfig (s : State) : Result := .next (respond .ok (configWord s.cfg) s)

/-- RD_TABLE_SIZE (R172): legal in every state. -/
def execRdTableSize (s : State) : Result := .next (respond .ok (tableSizeWord s.cfg) s)

/-- RD_SAMPLE_RATE (R173): legal in every state. -/
def execRdSampleRate (s : State) : Result := .next (respond .ok (sampleRateWord s.cfg) s)

/-- RD_ILLEGAL (R174): E_ADDR in every state, whatever the offset. -/
def execRdIllegal (_addr : Offset) (s : State) : Result := .next (raise .addr s)

end Sys2Proof.Machine
end

