-- ==== Sys2Proof/Machine/Lifecycle.lean ====
section
/-! DEFINITION. RESET and the lifecycle commands (44_lifecycle.md R190 to R196). -/

namespace Sys2Proof.Machine

/-- RESET (R196): every element of 10_state.md R46; no response. -/
def execReset (s : State) : Result :=
  .next { releaseEngine s with
    eNotInit := false, eState := false, eCmd := false, eAddr := false, outA := 0, outB := 0 }

/-- CMD_INIT (R192): E_STATE unless UNINIT; else ACC 0 and the parameters' frequency and phase, through the conversions
of a write; LIFE STOPPED. -/
def execCmdInit (s : State) : Result :=
  match s.life with
  | .uninit =>
    .next (respond .ok 0 (setLife .stopped
      (loadPhase (phaseOperand s.cfg.initPhase) (loadFreq (freqOperand s.cfg.initFreq) { s with acc := 0 }))))
  | .stopped => .next (raise .state s)
  | .running => .next (raise .state s)

/-- CMD_DEINIT (R193): legal in every state. -/
def execCmdDeinit (s : State) : Result := .next (respond .ok 0 (releaseEngine s))

/-- CMD_START (R194). -/
def execCmdStart (s : State) : Result := .next (ifInitialised s (respond .ok 0 (setLife .running s)))

/-- CMD_STOP (R195). -/
def execCmdStop (s : State) : Result := .next (ifInitialised s (respond .ok 0 (setLife .stopped s)))

/-- CMD_RSVD (R191): E_CMD in every state, whatever the code. -/
def execCmdRsvd (_code : Word) (s : State) : Result := .next (raise .cmd s)

end Sys2Proof.Machine
end

