-- ==== Sys2Proof/Machine/Tick.lean ====
section
/-! DEFINITION. The TICK event (42_tick.md R140 to R149). -/

namespace Sys2Proof.Machine

/-- The body of R140 in LIFE = RUNNING: both samples from the ACC before the advance. The fault is for a ROM index that does
not exist, which no state of the invariant computes (20_memory.md R51; log 7). -/
def produceSamples (s : State) : Result :=
  match sample s.cfg s.acc, sample s.cfg (phaseAdd s.cfg s.acc s.off) with
  | some va, some vb => .next (advance (emitSamples va vb s))
  | _, _ => .fault .romIndex

/-- TICK (R140, R141). -/
def execTick (s : State) : Result :=
  match s.life with
  | .uninit => .next s
  | .stopped => .next s
  | .running => produceSamples s

end Sys2Proof.Machine
end

