-- ==== Sys2Proof/Syntax.lean ====
section
/-! DEFINITION. The events of the block as syntax: one constructor for each row of spec/opcode_table.json
(30_encoding.md R81), the names of the registers (10_state.md R34), and the assembler's forms (R82, R83). -/

namespace Sys2Proof

/-- One event, one row of the opcode table. -/
inductive Instr where
  /-- TICK, 42_tick.md R140. -/
  | tick
  /-- RESET, 44_lifecycle.md R196. -/
  | reset
  /-- CMD_INIT, R192: a write of 1 to CMD. -/
  | cmdInit
  /-- CMD_DEINIT, R193: a write of 2 to CMD. -/
  | cmdDeinit
  /-- CMD_START, R194: a write of 3 to CMD. -/
  | cmdStart
  /-- CMD_STOP, R195: a write of 4 to CMD. -/
  | cmdStop
  /-- CMD_RSVD, R191: a write of any other code to CMD. -/
  | cmdRsvd (code : Word)
  /-- WR_STATUS, 43_control.md R170. The whole DATA word is kept: only bits [11:8] act (R75). -/
  | wrStatus (data : Word)
  /-- WR_FREQ, R161. -/
  | wrFreq (data : Word)
  /-- WR_PHASE, R163. -/
  | wrPhase (data : Word)
  /-- WR_ILLEGAL, R174: a write of any offset but 0x00, 0x04, 0x08 and 0x0C. -/
  | wrIllegal (addr : Offset) (data : Word)
  /-- RD_STATUS, R169. -/
  | rdStatus
  /-- RD_FREQ, R162. -/
  | rdFreq
  /-- RD_PHASE, R164. -/
  | rdPhase
  /-- RD_INC, R165. -/
  | rdInc
  /-- RD_OFFSET, R166. -/
  | rdOffset
  /-- RD_ACC, R167. -/
  | rdAcc
  /-- RD_FREQ_ACH, R168. -/
  | rdFreqAch
  /-- RD_CONFIG, R171. -/
  | rdConfig
  /-- RD_TABLE_SIZE, R172. -/
  | rdTableSize
  /-- RD_SAMPLE_RATE, R173. -/
  | rdSampleRate
  /-- RD_ILLEGAL, R174: a read of any offset but 0x04 to 0x28 in steps of 4. -/
  | rdIllegal (addr : Offset)
deriving DecidableEq, Repr

/-- The registers of 10_state.md R34. -/
inductive Reg where
  | cmd | status | freq | phase | inc | offset | acc | freqAch | config | tableSize | sampleRate
deriving DecidableEq, Repr

/-- An assembler number: `num / den`, so that a decimal operand of SETFREQ or SETPHASE (30_encoding.md R83) is exact. -/
structure Ratio where
  num : Int
  den : Nat
deriving DecidableEq, Repr

/-- The assembler's forms: the events of 30_encoding.md R82 and the pseudo-instructions of R83. -/
inductive Asm where
  | tick
  | reset
  | rd (r : Reg)
  | rdAt (off : Int)
  | wr (r : Reg) (imm : Int)
  | wrAt (off imm : Int)
  | init
  | deinit
  | start
  | stop
  | setFreq (hz : Ratio)
  | setPhase (deg : Ratio)
  | getFreq
  | getPhase
  | clrErr
  | ticks (n : Nat)
deriving DecidableEq, Repr

end Sys2Proof
end

