-- ==== Sys2Proof/Machine/Dispatch.lean ====
section
/-! DEFINITION. One arm for each row of the opcode table. -/

namespace Sys2Proof.Machine

def exec (i : Instr) (s : State) : Host.Outcome State Fault Refusal :=
  match i with
  | .tick => Sys2Proof.Machine.execTick s
  | .reset => Sys2Proof.Machine.execReset s
  | .cmdInit => Sys2Proof.Machine.execCmdInit s
  | .cmdDeinit => Sys2Proof.Machine.execCmdDeinit s
  | .cmdStart => Sys2Proof.Machine.execCmdStart s
  | .cmdStop => Sys2Proof.Machine.execCmdStop s
  | .cmdRsvd code => Sys2Proof.Machine.execCmdRsvd code s
  | .wrStatus data => Sys2Proof.Machine.execWrStatus data s
  | .wrFreq data => Sys2Proof.Machine.execWrFreq data s
  | .wrPhase data => Sys2Proof.Machine.execWrPhase data s
  | .wrIllegal addr data => Sys2Proof.Machine.execWrIllegal addr data s
  | .rdStatus => Sys2Proof.Machine.execRdStatus s
  | .rdFreq => Sys2Proof.Machine.execRdFreq s
  | .rdPhase => Sys2Proof.Machine.execRdPhase s
  | .rdInc => Sys2Proof.Machine.execRdInc s
  | .rdOffset => Sys2Proof.Machine.execRdOffset s
  | .rdAcc => Sys2Proof.Machine.execRdAcc s
  | .rdFreqAch => Sys2Proof.Machine.execRdFreqAch s
  | .rdConfig => Sys2Proof.Machine.execRdConfig s
  | .rdTableSize => Sys2Proof.Machine.execRdTableSize s
  | .rdSampleRate => Sys2Proof.Machine.execRdSampleRate s
  | .rdIllegal addr => Sys2Proof.Machine.execRdIllegal addr s

end Sys2Proof.Machine
end

