-- ==== Sys2Proof/WellFormed.lean ====
section
/-! DEFINITION. Which terms of `Instr` spell an event. Only the three fall-back rows of 30_encoding.md R81 have operands
that another row takes away from them; every 32-bit DATA is legal elsewhere (43_control.md R161, R163, R170). -/

namespace Sys2Proof

/-- The command codes of 30_encoding.md R74 that are not reserved. -/
def isCommandCode (code : Word) : Bool :=
  code == 1 || code == 2 || code == 3 || code == 4

/-- The offsets a bus write may name: CMD, STATUS, FREQ, PHASE (43_control.md R160). -/
def isWritable (addr : Offset) : Bool :=
  addr == 0x00 || addr == 0x04 || addr == 0x08 || addr == 0x0C

/-- The offsets a bus read may name: STATUS to SAMPLE_RATE, 0x04 to 0x28 in steps of 4 (43_control.md R160). -/
def isReadable (addr : Offset) : Bool :=
  addr == 0x04 || addr == 0x08 || addr == 0x0C || addr == 0x10 || addr == 0x14 || addr == 0x18 || addr == 0x1C ||
    addr == 0x20 || addr == 0x24 || addr == 0x28

/-- A term that is the decoding of some transaction word: a fall-back row holds no operand of a more specific row
(30_encoding.md R81, last paragraph). -/
def Instr.wellFormed : Instr → Bool
  | .cmdRsvd code => !isCommandCode code
  | .wrIllegal addr _ => !isWritable addr
  | .rdIllegal addr => !isReadable addr
  | .tick => true
  | .reset => true
  | .cmdInit => true
  | .cmdDeinit => true
  | .cmdStart => true
  | .cmdStop => true
  | .wrStatus _ => true
  | .wrFreq _ => true
  | .wrPhase _ => true
  | .rdStatus => true
  | .rdFreq => true
  | .rdPhase => true
  | .rdInc => true
  | .rdOffset => true
  | .rdAcc => true
  | .rdFreqAch => true
  | .rdConfig => true
  | .rdTableSize => true
  | .rdSampleRate => true

end Sys2Proof
end

