-- ==== Sys2Proof/Decode.lean ====
section
/-! DEFINITION. Decoding a transaction word (30_encoding.md R76), the encoder (R70, R81), and the opcode table as data
(spec/opcode_table.json). -/

namespace Sys2Proof

/-- Why a word spells no event (30_encoding.md R76, decision D38). -/
inductive DecodeError where
  /-- RSV[61:40] is not 0. -/
  | malformedRsv
  /-- a TICK or RESET word with ADDR or DATA not 0. -/
  | malformedEvent
  /-- a bus read word with DATA not 0. -/
  | malformedRead
deriving DecidableEq, Repr

/-! ## The fields of a transaction word (30_encoding.md R70) -/

def kindOf (w : TW) : BitVec 2 := w.extractLsb' 62 2
def rsvOf (w : TW) : BitVec 22 := w.extractLsb' 40 22
def addrOf (w : TW) : Offset := w.extractLsb' 32 8
def dataOf (w : TW) : Word := w.extractLsb' 0 32

def kindRead : BitVec 2 := 0b00#2
def kindWrite : BitVec 2 := 0b01#2
def kindTick : BitVec 2 := 0b10#2
def kindReset : BitVec 2 := 0b11#2

/-- A word with RSV = 0 (30_encoding.md R70). -/
def packTW (kind : BitVec 2) (addr : Offset) (data : Word) : TW :=
  kind ++ 0#22 ++ addr ++ data

/-! ## Decoding -/

/-- The command a write to CMD names: the whole 32-bit word is the code (30_encoding.md R74, 44_lifecycle.md R191). -/
def decodeCommand (code : Word) : Instr :=
  if code = 1 then .cmdInit
  else if code = 2 then .cmdDeinit
  else if code = 3 then .cmdStart
  else if code = 4 then .cmdStop
  else .cmdRsvd code

/-- The row of a bus write (30_encoding.md R81). -/
def decodeWrite (addr : Offset) (data : Word) : Instr :=
  if addr = 0x00 then decodeCommand data
  else if addr = 0x04 then .wrStatus data
  else if addr = 0x08 then .wrFreq data
  else if addr = 0x0C then .wrPhase data
  else .wrIllegal addr data

/-- The row of a bus read (30_encoding.md R81). -/
def decodeRead (addr : Offset) : Instr :=
  if addr = 0x04 then .rdStatus
  else if addr = 0x08 then .rdFreq
  else if addr = 0x0C then .rdPhase
  else if addr = 0x10 then .rdInc
  else if addr = 0x14 then .rdOffset
  else if addr = 0x18 then .rdAcc
  else if addr = 0x1C then .rdFreqAch
  else if addr = 0x20 then .rdConfig
  else if addr = 0x24 then .rdTableSize
  else if addr = 0x28 then .rdSampleRate
  else .rdIllegal addr

/-- Decoding, total on the 64-bit words, in the order of 30_encoding.md R76. -/
def decode (w : TW) : Except DecodeError Instr :=
  if rsvOf w ≠ 0 then .error .malformedRsv
  else if kindOf w = kindTick then
    if addrOf w ≠ 0 ∨ dataOf w ≠ 0 then .error .malformedEvent else .ok .tick
  else if kindOf w = kindReset then
    if addrOf w ≠ 0 ∨ dataOf w ≠ 0 then .error .malformedEvent else .ok .reset
  else if kindOf w = kindRead then
    if dataOf w ≠ 0 then .error .malformedRead else .ok (decodeRead (addrOf w))
  else .ok (decodeWrite (addrOf w) (dataOf w))

/-! ## Encoding -/

/-- The word of an event (30_encoding.md R81). -/
def encode : Instr → TW
  | .tick => packTW kindTick 0 0
  | .reset => packTW kindReset 0 0
  | .cmdInit => packTW kindWrite 0x00 1
  | .cmdDeinit => packTW kindWrite 0x00 2
  | .cmdStart => packTW kindWrite 0x00 3
  | .cmdStop => packTW kindWrite 0x00 4
  | .cmdRsvd code => packTW kindWrite 0x00 code
  | .wrStatus data => packTW kindWrite 0x04 data
  | .wrFreq data => packTW kindWrite 0x08 data
  | .wrPhase data => packTW kindWrite 0x0C data
  | .wrIllegal addr data => packTW kindWrite addr data
  | .rdStatus => packTW kindRead 0x04 0
  | .rdFreq => packTW kindRead 0x08 0
  | .rdPhase => packTW kindRead 0x0C 0
  | .rdInc => packTW kindRead 0x10 0
  | .rdOffset => packTW kindRead 0x14 0
  | .rdAcc => packTW kindRead 0x18 0
  | .rdFreqAch => packTW kindRead 0x1C 0
  | .rdConfig => packTW kindRead 0x20 0
  | .rdTableSize => packTW kindRead 0x24 0
  | .rdSampleRate => packTW kindRead 0x28 0
  | .rdIllegal addr => packTW kindRead addr 0

/-! ## The opcode table as data -/

/-- The mnemonic of an event's row in spec/opcode_table.json. -/
def mnemonicOf : Instr → String
  | .tick => "TICK"
  | .reset => "RESET"
  | .cmdInit => "CMD_INIT"
  | .cmdDeinit => "CMD_DEINIT"
  | .cmdStart => "CMD_START"
  | .cmdStop => "CMD_STOP"
  | .cmdRsvd _ => "CMD_RSVD"
  | .wrStatus _ => "WR_STATUS"
  | .wrFreq _ => "WR_FREQ"
  | .wrPhase _ => "WR_PHASE"
  | .wrIllegal _ _ => "WR_ILLEGAL"
  | .rdStatus => "RD_STATUS"
  | .rdFreq => "RD_FREQ"
  | .rdPhase => "RD_PHASE"
  | .rdInc => "RD_INC"
  | .rdOffset => "RD_OFFSET"
  | .rdAcc => "RD_ACC"
  | .rdFreqAch => "RD_FREQ_ACH"
  | .rdConfig => "RD_CONFIG"
  | .rdTableSize => "RD_TABLE_SIZE"
  | .rdSampleRate => "RD_SAMPLE_RATE"
  | .rdIllegal _ => "RD_ILLEGAL"

/-- One row of spec/opcode_table.json: its mnemonic, `match` and `mask`. -/
structure OpcodeRow where
  mnemonic : String
  bits : TW
  mask : TW
deriving DecidableEq, Repr

/-- `(w & mask) == match` (30_encoding.md R76). -/
def rowMatches (r : OpcodeRow) (w : TW) : Bool := w &&& r.mask == r.bits

/-- The number of 1 bits of a row's mask (30_encoding.md R76: the row with the most of them is taken). -/
def rowWeight (r : OpcodeRow) : Nat := (List.range 64).countP (fun k => r.mask.getLsbD k)

/-- The rows of spec/opcode_table.json for TICK, RESET and bus writes. -/
def eventAndWriteRows : List OpcodeRow :=
  [⟨"TICK", 0x8000000000000000, 0xFFFFFFFFFFFFFFFF⟩,
   ⟨"RESET", 0xC000000000000000, 0xFFFFFFFFFFFFFFFF⟩,
   ⟨"CMD_INIT", 0x4000000000000001, 0xFFFFFFFFFFFFFFFF⟩,
   ⟨"CMD_DEINIT", 0x4000000000000002, 0xFFFFFFFFFFFFFFFF⟩,
   ⟨"CMD_START", 0x4000000000000003, 0xFFFFFFFFFFFFFFFF⟩,
   ⟨"CMD_STOP", 0x4000000000000004, 0xFFFFFFFFFFFFFFFF⟩,
   ⟨"CMD_RSVD", 0x4000000000000000, 0xFFFFFFFF00000000⟩,
   ⟨"WR_STATUS", 0x4000000400000000, 0xFFFFFFFF00000000⟩,
   ⟨"WR_FREQ", 0x4000000800000000, 0xFFFFFFFF00000000⟩,
   ⟨"WR_PHASE", 0x4000000C00000000, 0xFFFFFFFF00000000⟩,
   ⟨"WR_ILLEGAL", 0x4000000000000000, 0xFFFFFF0000000000⟩]

/-- The rows of spec/opcode_table.json for bus reads. -/
def readRows : List OpcodeRow :=
  [⟨"RD_STATUS", 0x0000000400000000, 0xFFFFFFFFFFFFFFFF⟩,
   ⟨"RD_FREQ", 0x0000000800000000, 0xFFFFFFFFFFFFFFFF⟩,
   ⟨"RD_PHASE", 0x0000000C00000000, 0xFFFFFFFFFFFFFFFF⟩,
   ⟨"RD_INC", 0x0000001000000000, 0xFFFFFFFFFFFFFFFF⟩,
   ⟨"RD_OFFSET", 0x0000001400000000, 0xFFFFFFFFFFFFFFFF⟩,
   ⟨"RD_ACC", 0x0000001800000000, 0xFFFFFFFFFFFFFFFF⟩,
   ⟨"RD_FREQ_ACH", 0x0000001C00000000, 0xFFFFFFFFFFFFFFFF⟩,
   ⟨"RD_CONFIG", 0x0000002000000000, 0xFFFFFFFFFFFFFFFF⟩,
   ⟨"RD_TABLE_SIZE", 0x0000002400000000, 0xFFFFFFFFFFFFFFFF⟩,
   ⟨"RD_SAMPLE_RATE", 0x0000002800000000, 0xFFFFFFFFFFFFFFFF⟩,
   ⟨"RD_ILLEGAL", 0x0000000000000000, 0xFFFFFF00FFFFFFFF⟩]

/-- spec/opcode_table.json, all 22 rows. -/
def opcodeTable : List OpcodeRow := eventAndWriteRows ++ readRows

/-! ## Words as the opcode table numbers their bits -/

/-- The transaction word whose low `nbits` bits are those of `w` and whose other bits are 0. A TW is one 64-bit value
(30_encoding.md R70): bit k of the table's numbering is bit k of the word, and no byte order comes in. -/
def tableWord (nbits w : Nat) : TW := BitVec.ofNat 64 (w % 2 ^ nbits)

/-- What the decoder reads from such a word. -/
def decodeTableWord (nbits w : Nat) : Option Instr :=
  match decode (tableWord nbits w) with
  | .ok i => some i
  | .error _ => none

end Sys2Proof
end

