-- ==== Sys2Proof/Machine/Fetch.lean ====
section
/-! DEFINITION. Taking the next event of the stream (00_scope.md R6, R12; 20_memory.md R56, R58). -/

namespace Sys2Proof.Machine

/-- What the block finds when it looks at its input. -/
inductive Fetched where
  /-- no event has come -/
  | idle
  /-- the input, or the configuration, has no meaning -/
  | refuse (r : Refusal)
  /-- event `i`, to be run in state `s`, from whose stream it has been taken -/
  | run (i : Instr) (s : State)
deriving DecidableEq, Repr

/-- The refusal of a malformed word (30_encoding.md R76). -/
def refusalOf : DecodeError → Refusal
  | .malformedRsv => .malformedRsv
  | .malformedEvent => .malformedEvent
  | .malformedRead => .malformedRead

/-- Decode a word taken from the stream; `s` is the state without it. -/
def takeWord (w : TW) (s : State) : Fetched :=
  match decode w with
  | .ok i => .run i s
  | .error e => .refuse (refusalOf e)

/-- The next event: an illegal configuration is refused before any event (00_scope.md R8); with no event the block is idle
(70_reset_and_hazards.md R241; DESIGN CHOICE, log 3). -/
def fetch (s : State) : Fetched :=
  if s.cfg.legal then
    match s.events with
    | [] => .idle
    | w :: rest => takeWord w { s with events := rest }
  else .refuse .illegalConfiguration

/-- Put a word at the head of the stream, where `fetch` takes its next event. -/
def pushEvent (w : TW) (s : State) : State := { s with events := w :: s.events }

end Sys2Proof.Machine
end

