-- ==== Sys2Proof/Machine/Step.lean ====
section
/-! DEFINITION. One step: one atomic event (00_scope.md R12, 20_memory.md R56). -/

namespace Sys2Proof.Machine

/-- One step. An idle block stays as it is (log 3). -/
def step (s : State) : Host.Outcome State Fault Refusal :=
  match fetch s with
  | .idle => .next s
  | .refuse r => .refused r
  | .run i t => exec i t

/-- `s` with the word at the head of its event stream, so that the very next step runs it (log 4). -/
def State.withFetchWord (s : State) (nbits w : Nat) : State := pushEvent (tableWord nbits w) s

end Sys2Proof.Machine
end

