-- ==== Sys2Proof/Machine/Asm.lean ====
section
/-! DEFINITION. The assembler of 30_encoding.md R82 and R83: its forms to transaction words, and its text to forms. It is a
spelling of events; no step depends on it. -/

namespace Sys2Proof

/-! ## Forms to words -/

/-- The offset of a register (10_state.md R34). -/
def regOffset : Reg → Offset
  | .cmd => 0x00
  | .status => 0x04
  | .freq => 0x08
  | .phase => 0x0C
  | .inc => 0x10
  | .offset => 0x14
  | .acc => 0x18
  | .freqAch => 0x1C
  | .config => 0x20
  | .tableSize => 0x24
  | .sampleRate => 0x28

/-- `<imm32>`: 0 to 2^32 - 1, or -2^31 to -1 as its two's complement (R82). -/
def asmImm (v : Int) : Option Word :=
  if -2147483648 ≤ v ∧ v < 4294967296 then some (BitVec.ofInt 32 v) else none

/-- `<off>`: 0 to 255 (R82). -/
def asmOffset (v : Int) : Option Offset :=
  if 0 ≤ v ∧ v < 256 then some (BitVec.ofInt 8 v) else none

/-- `x × scale` when it is an integer (R83). -/
def asmScaled (x : Ratio) (scale : Int) : Option Int :=
  if x.den ≠ 0 ∧ x.num * scale % (x.den : Int) = 0 then some (x.num * scale / (x.den : Int)) else none

/-- `SETFREQ`: hz × 256, an integer in [0, 2^32) (R83). -/
def asmFreq (hz : Ratio) : Option Word :=
  match asmScaled hz 256 with
  | some v => if 0 ≤ v ∧ v < 4294967296 then some (BitVec.ofInt 32 v) else none
  | none => none

/-- `SETPHASE`: deg × 65536, an integer in [-2^31, 2^31) (R83). -/
def asmPhase (deg : Ratio) : Option Word :=
  match asmScaled deg 65536 with
  | some v => if -2147483648 ≤ v ∧ v < 2147483648 then some (BitVec.ofInt 32 v) else none
  | none => none

/-- A bus write of a known word. -/
def asmWrite (a : Offset) (d : Option Word) : Option (List TW) :=
  match d with
  | some d => some [packTW kindWrite a d]
  | none => none

/-- The words of one form (R82, R83); `none` where the assembler refuses it. -/
def assemble : Asm → Option (List TW)
  | .tick => some [packTW kindTick 0 0]
  | .reset => some [packTW kindReset 0 0]
  | .rd r => some [packTW kindRead (regOffset r) 0]
  | .rdAt off =>
    match asmOffset off with
    | some a => some [packTW kindRead a 0]
    | none => none
  | .wr r imm => asmWrite (regOffset r) (asmImm imm)
  | .wrAt off imm =>
    match asmOffset off with
    | some a => asmWrite a (asmImm imm)
    | none => none
  | .init => asmWrite (regOffset .cmd) (some 1)
  | .deinit => asmWrite (regOffset .cmd) (some 2)
  | .start => asmWrite (regOffset .cmd) (some 3)
  | .stop => asmWrite (regOffset .cmd) (some 4)
  | .setFreq hz => asmWrite (regOffset .freq) (asmFreq hz)
  | .setPhase deg => asmWrite (regOffset .phase) (asmPhase deg)
  | .getFreq => some [packTW kindRead (regOffset .freq) 0]
  | .getPhase => some [packTW kindRead (regOffset .phase) 0]
  | .clrErr => asmWrite (regOffset .status) (some 0x0F00)
  | .ticks n => some (List.replicate n (packTW kindTick 0 0))

/-! ## Text to forms (R82: one event per line, `;` starts a comment, case-insensitive, decimal or 0x numbers). What
these leave open, white space, blank lines, the decimal point and the places of `_` and of the sign, is settled by log 15. -/

/-- Drop a comment. -/
def dropComment : List Char → List Char
  | [] => []
  | ch :: rest => if ch = ';' then [] else ch :: dropComment rest

/-- Split a line at white space; a comma and an at sign are tokens of their own. `cur` is the token being read, reversed. -/
def tokens : List Char → List Char → List (List Char)
  | [], cur => if cur = [] then [] else [cur.reverse]
  | ch :: rest, cur =>
    let done := if cur = [] then [] else [cur.reverse]
    if ch = ' ' ∨ ch = '\t' ∨ ch = '\r' then done ++ tokens rest []
    else if ch = ',' ∨ ch = '@' then done ++ [ch] :: tokens rest []
    else tokens rest (ch.toUpper :: cur)

/-- The value of one digit; 16 where it is none. `tokens` has put letters in upper case, so hexadecimal digits of either case
are read, a DESIGN CHOICE (log 15): R82 says it of mnemonics and register names only. -/
def digitValue (ch : Char) : Nat :=
  if '0'.toNat ≤ ch.toNat ∧ ch.toNat ≤ '9'.toNat then ch.toNat - '0'.toNat
  else if 'A'.toNat ≤ ch.toNat ∧ ch.toNat ≤ 'F'.toNat then ch.toNat - 'A'.toNat + 10
  else 16

/-- The value of digits in a base, after those whose value is `acc`; nothing else may stand among them. -/
def digits (base : Nat) : List Char → Nat → Option Nat
  | [], acc => some acc
  | ch :: rest, acc => if digitValue ch < base then digits base rest (acc * base + digitValue ch) else none

/-- The digits of a `0x` literal without the separator `_`, which carries no meaning (00_scope.md R10). That it may stand at
any place after the `0x`, the first and the last among them, is a DESIGN CHOICE (log 15): R10 says no more than that it
groups digits. -/
def dropSeparators (cs : List Char) : List Char := cs.filter (· ≠ '_')

/-- An unsigned decimal, with or without a decimal point: the digits on both sides over a power of ten. R10 gives the
separator `_` for `0x` literals and R82 is silent on it; that a decimal with a `_` anywhere is refused is a DESIGN CHOICE
(log 15), as is the decimal point, with a digit on each side of it. -/
def decimal : List Char → Nat → Option Ratio
  | [], acc => some ⟨acc, 1⟩
  | ch :: rest, acc =>
    if ch = '.' then
      match digits 10 rest acc with
      | some v => if rest = [] then none else some ⟨v, 10 ^ rest.length⟩
      | none => none
    else if digitValue ch < 10 then decimal rest (acc * 10 + digitValue ch) else none

/-- An unsigned number: `0x` hexadecimal, or decimal (R82). That a `0x` with no digit after it, be there a `_` or not, is
refused is a DESIGN CHOICE (log 15): R82 does not say how many digits a number has. -/
def unsignedNumber : List Char → Option Ratio
  | [] => none
  | '0' :: 'X' :: rest =>
    match dropSeparators rest with
    | [] => none
    | cs =>
      match digits 16 cs 0 with
      | some v => some ⟨v, 1⟩
      | none => none
  | ch :: rest => if digitValue ch < 10 then decimal (ch :: rest) 0 else none

/-- A number, with or without a minus sign. R82 has negative numbers and does not say of which base; that the sign may stand
before either is a DESIGN CHOICE (log 15). -/
def number : List Char → Option Ratio
  | '-' :: rest =>
    match unsignedNumber rest with
    | some x => some ⟨-x.num, x.den⟩
    | none => none
  | cs => unsignedNumber cs

/-- A number without a fraction: one written with a decimal point is none, be its fraction 0 (DESIGN CHOICE, log 15). -/
def integer (cs : List Char) : Option Int :=
  match number cs with
  | some x => if x.den = 1 then some x.num else none
  | none => none

/-- The register names (R82). -/
def regNames : List (List Char × Reg) :=
  [("CMD".toList, .cmd), ("STATUS".toList, .status), ("FREQ".toList, .freq), ("PHASE".toList, .phase),
   ("INC".toList, .inc), ("OFFSET".toList, .offset), ("ACC".toList, .acc), ("FREQ_ACH".toList, .freqAch),
   ("CONFIG".toList, .config), ("TABLE_SIZE".toList, .tableSize), ("SAMPLE_RATE".toList, .sampleRate)]

/-- The forms that have no operand (R82, R83). -/
def plainForms : List (List Char × Asm) :=
  [("TICK".toList, .tick), ("RESET".toList, .reset), ("INIT".toList, .init), ("DEINIT".toList, .deinit),
   ("START".toList, .start), ("STOP".toList, .stop), ("GETFREQ".toList, .getFreq), ("GETPHASE".toList, .getPhase),
   ("CLRERR".toList, .clrErr)]

/-- A form with one operand. -/
def parseOne (m x : List Char) : Option Asm :=
  if m = "RD".toList then (regNames.lookup x).map .rd
  else if m = "SETFREQ".toList then (number x).map .setFreq
  else if m = "SETPHASE".toList then (number x).map .setPhase
  else if m = "TICKS".toList then
    match integer x with
    | some v => if 0 ≤ v then some (.ticks v.toNat) else none
    | none => none
  else none

/-- `WR <reg>, <imm32>`. -/
def parseWr (r x : List Char) : Option Asm :=
  match regNames.lookup r, integer x with
  | some reg, some v => some (.wr reg v)
  | _, _ => none

/-- `WR @<off>, <imm32>`. -/
def parseWrAt (o x : List Char) : Option Asm :=
  match integer o, integer x with
  | some off, some v => some (.wrAt off v)
  | _, _ => none

/-- The form of a line's tokens. -/
def parseTokens : List (List Char) → Option Asm
  | [m] => plainForms.lookup m
  | [m, x] => parseOne m x
  | [m, at', o] => if m = "RD".toList ∧ at' = ['@'] then (integer o).map .rdAt else none
  | [m, r, comma, x] => if m = "WR".toList ∧ comma = [','] then parseWr r x else none
  | [m, at', o, comma, x] =>
    if m = "WR".toList ∧ at' = ['@'] ∧ comma = [','] then parseWrAt o x else none
  | _ => none

/-- The words of one line: none for a blank line or a line of comment. -/
def assembleLine (line : List Char) : Option (List TW) :=
  match tokens (dropComment line) [] with
  | [] => some []
  | ts =>
    match parseTokens ts with
    | some a => assemble a
    | none => none

/-- The lines of a text. `cur` is the line being read, reversed. -/
def textLines : List Char → List Char → List (List Char)
  | [], cur => [cur.reverse]
  | ch :: rest, cur => if ch = '\n' then cur.reverse :: textLines rest [] else textLines rest (ch :: cur)

/-- The words of all lines, or none if the assembler refuses one. -/
def assembleLines : List (List Char) → Option (List TW)
  | [] => some []
  | l :: ls =>
    match assembleLine l, assembleLines ls with
    | some ws, some rest => some (ws ++ rest)
    | _, _ => none

/-- The words of a program text. -/
def assembleText (text : List Char) : Option (List TW) := assembleLines (textLines text [])

end Sys2Proof
end

