-- ==== Sys2Proof/Machine/Bus.lean ====
section
/-! DEFINITION. The bus dispatch of 43_control.md R160 and the command dispatch of 44_lifecycle.md R191 as the spec writes
them, by offset and not by opcode row. No step uses this file: the claims hold the opcode rows of Dispatch.lean against it. -/

namespace Sys2Proof.Machine

/-- `ReadValue(addr)` (R160; 43_control.md R162 to R173). -/
def readValue (addr : Offset) (s : State) : Word :=
  if addr = 0x04 then statusWord s
  else if addr = 0x08 then s.freqReq
  else if addr = 0x0C then s.phaseReq
  else if addr = 0x10 then s.inc
  else if addr = 0x14 then s.off
  else if addr = 0x18 then s.acc
  else if addr = 0x1C then BitVec.ofNat 32 (incToFreq s.cfg s.inc.toNat)
  else if addr = 0x20 then configWord s.cfg
  else if addr = 0x24 then tableSizeWord s.cfg
  else sampleRateWord s.cfg

/-- `BusRead(addr)` (R160). -/
def busRead (addr : Offset) (s : State) : State :=
  if addr.extractLsb' 0 2 ≠ 0#2 ∨ addr > 0x28 ∨ addr = 0x00 then raise .addr s
  else if (addr = 0x08 ∨ addr = 0x0C ∨ addr = 0x10 ∨ addr = 0x14 ∨ addr = 0x18 ∨ addr = 0x1C) ∧ s.life = .uninit then
    raise .notInit s
  else respond .ok (readValue addr s) s

/-- `Init()` (44_lifecycle.md R192). -/
def commandInit (s : State) : State :=
  if s.life ≠ .uninit then raise .state s
  else respond .ok 0 (setLife .stopped
    (loadPhase (phaseOperand s.cfg.initPhase) (loadFreq (freqOperand s.cfg.initFreq) { s with acc := 0 })))

/-- `Start()` and `Stop()` (R194, R195), by the LIFE they enter. -/
def commandRun (l : Life) (s : State) : State :=
  if s.life = .uninit then raise .notInit s else respond .ok 0 (setLife l s)

/-- `Command(code)` (R191). -/
def command (code : Word) (s : State) : State :=
  if code = 1 then commandInit s
  else if code = 2 then respond .ok 0 (releaseEngine s)
  else if code = 3 then commandRun .running s
  else if code = 4 then commandRun .stopped s
  else raise .cmd s

/-- `BusWrite(addr, data)` (R160). -/
def busWrite (addr : Offset) (data : Word) (s : State) : State :=
  if addr.extractLsb' 0 2 ≠ 0#2 ∨ ¬(addr = 0x00 ∨ addr = 0x04 ∨ addr = 0x08 ∨ addr = 0x0C) then raise .addr s
  else if addr = 0x00 then command data s
  else if (addr = 0x08 ∨ addr = 0x0C) ∧ s.life = .uninit then raise .notInit s
  else if addr = 0x04 then respond .ok 0 (clearErrors (clearMask data) s)
  else if addr = 0x08 then respond .ok 0 (loadFreq (freqOperand data) s)
  else respond .ok 0 (loadPhase (phaseOperand data) s)

end Sys2Proof.Machine
end

