-- ==== Sys2Proof/Safety.lean ====
section
/-! DEFINITION. The terms claims use: the invariant of 10_state.md R32 with the ranges of R20, runs of events, and what
the sink has received. -/

namespace Sys2Proof.Machine

/-- The invariant of an initialised block (10_state.md R32, first half). -/
abbrev EngineLoaded (s : State) : Prop :=
  s.cfg.fmin ≤ s.freqReq.toNat ∧ s.freqReq.toNat ≤ s.cfg.fmax ∧
  s.inc.toNat = freqToInc s.cfg s.freqReq.toNat ∧ 1 ≤ s.inc.toNat ∧
  s.phaseReq.toNat < Config.deg360 ∧ s.off.toNat = phaseToOff s.cfg s.phaseReq.toNat

/-- The invariant of an uninitialised block (10_state.md R32, second half). -/
abbrev EngineReleased (s : State) : Prop :=
  s.acc = 0 ∧ s.inc = 0 ∧ s.off = 0 ∧ s.freqReq = 0 ∧ s.phaseReq = 0

/-- The ranges of 10_state.md R20: W-bit words below 2^W, outputs at most AMAX. -/
abbrev WithinWidths (s : State) : Prop :=
  s.acc.toNat < 2 ^ s.cfg.w ∧ s.inc.toNat < 2 ^ s.cfg.w ∧ s.off.toNat < 2 ^ s.cfg.w ∧
  s.outA.toNat ≤ s.cfg.amax ∧ s.outB.toNat ≤ s.cfg.amax

/-- The invariant: a legal configuration (00_scope.md R7), the ranges of 10_state.md R20 and the invariants of R32. -/
abbrev State.Inv (s : State) : Prop :=
  s.cfg.legal = true ∧ WithinWidths s ∧
  (s.life = .uninit → EngineReleased s) ∧ (s.life ≠ .uninit → EngineLoaded s)

/-- The events of a list one after the other, stopping at the first fault or refusal. -/
def execAll : List Instr → State → Result
  | [], s => .next s
  | i :: is, s =>
    match exec i s with
    | .next t => execAll is t
    | .fault r => .fault r
    | .refused r => .refused r

/-- `n` TICKs. -/
def ticks (n : Nat) (s : State) : Result := execAll (List.replicate n .tick) s

/-- The sink writes among what a run has shown, oldest first (42_tick.md R146). -/
def sinkWrites : List Observation → List (Channel × Sample)
  | [] => []
  | .response _ _ :: os => sinkWrites os
  | .sinkWrite ch v :: os => (ch, v) :: sinkWrites os

/-- The number of TICKs after which ACC is back where it was: 2^W / gcd(2^W, INC) (41_conversion.md R129). -/
def cycleTicks (s : State) : Nat := 2 ^ s.cfg.w / Nat.gcd (2 ^ s.cfg.w) s.inc.toNat

/-- The next state of an outcome. -/
def nextOf (o : Result) : Option State :=
  match o with
  | .next t => some t
  | .fault _ => none
  | .refused _ => none

/-- The refusal of an outcome. -/
def refusalIn (o : Result) : Option Refusal :=
  match o with
  | .next _ => none
  | .fault _ => none
  | .refused r => some r

end Sys2Proof.Machine
end

