-- ==== Sys2Proof/Certificates/Slice0/Obligations.lean ====
section
/-! DEFINITION. The statements for the provers. Each docstring names the rules of spec/ it formalises. Where a statement
says `exec i s = .next { s with … }`, every element that is not listed is unchanged: that is the instruction's frame, the
waveform ROM (`cfg.table`) among it. -/

open Sys2Proof Sys2Proof.Machine

/-! ## Reset, the step, decoding -/

/-- R46, R196: what power-on and a RESET event leave, and the word of RESET. The configured contents of TABLE stay. -/
def Obligations.ResetGivesEveryElementItsResetValue : Prop :=
  decode 0xC000000000000000 = .ok .reset ∧
  (∀ s : State, exec .reset s = .next { s with
    acc := 0, inc := 0, off := 0, life := .uninit, freqReq := 0, phaseReq := 0, eNotInit := false, eState := false,
    eCmd := false, eAddr := false, outA := 0, outB := 0 }) ∧
  (∀ c : Config, (State.resetOf c).cfg.table = c.table ∧ (State.resetOf c).acc = 0 ∧ (State.resetOf c).inc = 0 ∧
    (State.resetOf c).off = 0 ∧ (State.resetOf c).life = .uninit ∧ (State.resetOf c).freqReq = 0 ∧
    (State.resetOf c).phaseReq = 0 ∧ (State.resetOf c).eNotInit = false ∧ (State.resetOf c).eState = false ∧
    (State.resetOf c).eCmd = false ∧ (State.resetOf c).eAddr = false ∧ (State.resetOf c).outA = 0 ∧
    (State.resetOf c).outB = 0) ∧
  State.reset.life = .uninit ∧ State.reset.acc = 0 ∧ State.reset.inc = 0 ∧ State.reset.off = 0 ∧
  State.reset.freqReq = 0 ∧ State.reset.phaseReq = 0 ∧ State.reset.eNotInit = false ∧ State.reset.eState = false ∧
  State.reset.eCmd = false ∧ State.reset.eAddr = false ∧ State.reset.outA = 0 ∧ State.reset.outB = 0

/-- One step is one event of the stream (20_memory.md R56, R58): the head is taken and, when it decodes, run. That the
stream is a list in State and that an empty one leaves the block idle is the model's choice (log 3). -/
def Obligations.StepRunsTheDecodedHeadOfTheStream : Prop :=
  (∀ (s : State) (w : TW) (rest : List TW) (i : Instr), s.cfg.legal = true → s.events = w :: rest →
    decode w = .ok i → i.wellFormed = true ∧ step s = exec i { s with events := rest }) ∧
  (∀ s : State, s.cfg.legal = true → s.events = [] → step s = .next s)

/-- R8: a configuration outside the ranges of R7 is refused before any event, and no other is. -/
def Obligations.IllegalConfigurationIsRefusedBeforeAnyEvent : Prop :=
  ∀ s : State, step s = .refused .illegalConfiguration ↔
    ¬(1 ≤ s.cfg.w ∧ s.cfg.w ≤ 32 ∧ 2 ≤ s.cfg.n ∧ s.cfg.n ≤ 65536 ∧ 1 ≤ s.cfg.a ∧ s.cfg.a ≤ 16 ∧ 1 ≤ s.cfg.sr ∧
      s.cfg.sr ≤ 16777215 ∧ s.cfg.table.length = s.cfg.n ∧ ∀ v ∈ s.cfg.table, v.toNat < 2 ^ s.cfg.a)

/-- R76: the refusals of the pseudocode, in its order, and that every other word decodes. -/
def Obligations.MalformedWordsAreRefusedByNameAndOthersDecode : Prop :=
  ∀ (s : State) (w : TW) (rest : List TW), s.cfg.legal = true → s.events = w :: rest →
    (w.extractLsb' 40 22 ≠ 0 → step s = .refused .malformedRsv) ∧
    (w.extractLsb' 40 22 = 0 → (w.extractLsb' 62 2 = 0b10 ∨ w.extractLsb' 62 2 = 0b11) →
      (w.extractLsb' 32 8 ≠ 0 ∨ w.extractLsb' 0 32 ≠ 0) → step s = .refused .malformedEvent) ∧
    (w.extractLsb' 40 22 = 0 → w.extractLsb' 62 2 = 0b00 → w.extractLsb' 0 32 ≠ 0 →
      step s = .refused .malformedRead) ∧
    (w.extractLsb' 40 22 = 0 →
      (w.extractLsb' 62 2 = 0b01 ∨ (w.extractLsb' 62 2 = 0b00 ∧ w.extractLsb' 0 32 = 0) ∨
        (w.extractLsb' 32 8 = 0 ∧ w.extractLsb' 0 32 = 0)) →
      ∃ i, decode w = .ok i ∧ step s = exec i { s with events := rest })

/-- R76, the equivalent reading, with R81's rows: a word decodes to the matching row with the most mask bits, no word
matches two rows of equal weight, and a word that matches no row, and only such a word, is refused. -/
def Obligations.DecodingTakesTheHeaviestMatchingRow : Prop :=
  (∀ (w : TW) (i : Instr), decode w = .ok i →
    ∃ r ∈ opcodeTable, r.mnemonic = mnemonicOf i ∧ rowMatches r w = true ∧
      ∀ r' ∈ opcodeTable, r' ≠ r → rowMatches r' w = true → rowWeight r' < rowWeight r) ∧
  (∀ w : TW, (∃ e, decode w = .error e) ↔ ∀ r ∈ opcodeTable, rowMatches r w = false) ∧
  (∀ (w : TW), ∀ r ∈ opcodeTable, ∀ r' ∈ opcodeTable, r ≠ r' → rowMatches r w = true → rowMatches r' w = true →
    rowWeight r ≠ rowWeight r')

/-- Decoding undoes encoding, for every event with every operand its row admits (R70, R81). -/
def Obligations.DecodeUndoesEncode : Prop :=
  ∀ i : Instr, i.wellFormed = true → decode (encode i) = .ok i

/-- Every event has exactly one word (R80, R81): a word that decodes is the encoding of the event it decodes to, which is
well formed, and for every well-formed event there is one word, and no other, that decodes to it. -/
def Obligations.EachEventHasOneWord : Prop :=
  (∀ (w : TW) (i : Instr), decode w = .ok i → i.wellFormed = true ∧ encode i = w) ∧
  (∀ i : Instr, i.wellFormed = true → ∃ w : TW, decode w = .ok i ∧ ∀ w' : TW, decode w' = .ok i → w' = w)

/-- Words written out from the rows of R81, one for each family. -/
def Obligations.WordsOfEachFamilyDecode : Prop :=
  decode 0x8000000000000000 = .ok .tick ∧ decode 0x4000000000000001 = .ok .cmdInit ∧
  decode 0x4000000080000001 = .ok (.cmdRsvd 0x80000001) ∧ decode 0x4000000800009C40 = .ok (.wrFreq 0x9C40) ∧
  decode 0x4000000CFFA60000 = .ok (.wrPhase 0xFFA60000) ∧ decode 0x4000000400000F00 = .ok (.wrStatus 0xF00) ∧
  decode 0x0000001C00000000 = .ok .rdFreqAch ∧ decode 0x0000000000000000 = .ok (.rdIllegal 0) ∧
  decode 0x4000001000000005 = .ok (.wrIllegal 0x10 5)

/-- R160: the rows of the opcode table do what the dispatch by offset does, for every offset, datum and state. -/
def Obligations.OpcodeRowsRefineTheBusDispatch : Prop :=
  (∀ (s : State) (a : Offset), ∃ i, decode (0b00#2 ++ 0#22 ++ a ++ 0#32) = .ok i ∧ exec i s = .next (busRead a s)) ∧
  (∀ (s : State) (a : Offset) (d : Word),
    ∃ i, decode (0b01#2 ++ 0#22 ++ a ++ d) = .ok i ∧ exec i s = .next (busWrite a d s))

/-! ## The invariant, completion, runs -/

/-- The reset state of every legal configuration meets the invariant of R20 and R32. That State.reset is REF's is the
model's choice (log 2). -/
def Obligations.ResetMeetsTheStateInvariant : Prop :=
  State.reset.Inv ∧ ∀ c : Config, c.legal = true → (State.resetOf c).Inv

/-- R32: every step keeps the invariant, from every state that has it, whatever events follow. -/
def Obligations.StepKeepsTheStateInvariant : Prop :=
  ∀ s t : State, s.Inv → step s = .next t → t.Inv

/-- R148, and 93_implementation_defined.md section 2: every event completes, and a TICK sets no STATUS bit. -/
def Obligations.EveryEventCompletes : Prop :=
  (∀ (s : State) (i : Instr), s.Inv → ∃ t, exec i s = .next t) ∧
  (∀ s t : State, exec .tick s = .next t →
    t.eNotInit = s.eNotInit ∧ t.eState = s.eState ∧ t.eCmd = s.eCmd ∧ t.eAddr = s.eAddr ∧ t.life = s.life ∧
    statusWord t = statusWord s)

/-- No run from a state of the invariant ends in a fault, however long it is and whatever words it reads. -/
def Obligations.RunsNeverFault : Prop :=
  ∀ (n : Nat) (s : State) (r : Fault), s.Inv → Host.Core.run Sys2Proof.core n s ≠ .fault r

/-- A run of the machine over the words of a list of events is those events one after the other (20_memory.md R56, R58):
what is stated of `execAll` holds of runs. That the stream is a list in State is the model's choice (log 3). -/
def Obligations.RunOfAStreamRunsItsEvents : Prop :=
  ∀ (es : List Instr) (rest : List TW) (s : State), s.cfg.legal = true → (∀ i ∈ es, i.wellFormed = true) →
    s.events = es.map encode ++ rest →
    Host.Core.run Sys2Proof.core es.length s = execAll es { s with events := rest }

/-- Which events write which element (R20's column "written by", R23, R29, R30, R52, C9): every element of R20, the ROM
within `cfg`. `events` and `trace` are the model's own fields, not R20's: that an event leaves the words still to come is
the choice of log 3, that it only adds to what has been shown the choice of log 5. -/
def Obligations.ElementsChangeOnlyByTheirWriters : Prop :=
  ∀ (i : Instr) (s t : State), exec i s = .next t →
    (t.acc ≠ s.acc → (i = .tick ∧ s.life = .running) ∨ i = .cmdInit ∨ i = .cmdDeinit ∨ i = .reset) ∧
    (t.inc ≠ s.inc ∨ t.freqReq ≠ s.freqReq → (∃ d, i = .wrFreq d) ∨ i = .cmdInit ∨ i = .cmdDeinit ∨ i = .reset) ∧
    (t.off ≠ s.off ∨ t.phaseReq ≠ s.phaseReq → (∃ d, i = .wrPhase d) ∨ i = .cmdInit ∨ i = .cmdDeinit ∨ i = .reset) ∧
    (t.life ≠ s.life → i = .cmdInit ∨ i = .cmdDeinit ∨ i = .cmdStart ∨ i = .cmdStop ∨ i = .reset) ∧
    (t.outA ≠ s.outA ∨ t.outB ≠ s.outB → (i = .tick ∧ s.life = .running) ∨ i = .reset) ∧
    (t.eNotInit ≠ s.eNotInit → (s.life = .uninit ∧
        (i ∈ [Instr.rdFreq, .rdPhase, .rdInc, .rdOffset, .rdAcc, .rdFreqAch, .cmdStart, .cmdStop] ∨
          (∃ d, i = .wrFreq d) ∨ ∃ d, i = .wrPhase d)) ∨
      (∃ d, i = .wrStatus d) ∨ i = .reset) ∧
    (t.eState ≠ s.eState → (s.life ≠ .uninit ∧ i = .cmdInit) ∨ (∃ d, i = .wrStatus d) ∨ i = .reset) ∧
    (t.eCmd ≠ s.eCmd → (∃ c, i = .cmdRsvd c) ∨ (∃ d, i = .wrStatus d) ∨ i = .reset) ∧
    (t.eAddr ≠ s.eAddr → (∃ a, i = .rdIllegal a) ∨ (∃ a d, i = .wrIllegal a d) ∨ (∃ d, i = .wrStatus d) ∨
      i = .reset) ∧
    t.cfg = s.cfg ∧ t.events = s.events ∧ ∃ os, t.trace = s.trace ++ os

/-! ## TICK -/

/-- R141: no effect while STOPPED or UNINIT. -/
def Obligations.TickOutsideRunningHasNoEffect : Prop :=
  ∀ s : State, s.life ≠ .running → exec .tick s = .next s

/-- R142, R145, R146, R147: the TICK in RUNNING, to the last element; both samples are of the ACC before the advance, and
are A-bit values. OUT_A and OUT_B hold until the next such TICK or a RESET. -/
def Obligations.TickInRunningEmitsBothSamplesAndAdvances : Prop :=
  (∀ s : State, s.cfg.legal = true → s.acc.toNat < 2 ^ s.cfg.w → s.life = .running →
    ∃ (pb accNext : Word) (va vb : Sample),
      pb.toNat = (s.acc.toNat + s.off.toNat) % 2 ^ s.cfg.w ∧
      accNext.toNat = (s.acc.toNat + s.inc.toNat) % 2 ^ s.cfg.w ∧
      sample s.cfg s.acc = some va ∧ sample s.cfg pb = some vb ∧
      va.toNat < 2 ^ s.cfg.a ∧ vb.toNat < 2 ^ s.cfg.a ∧
      exec .tick s = .next { s with
        outA := va, outB := vb, acc := accNext, trace := s.trace ++ [.sinkWrite .chA va, .sinkWrite .chB vb] }) ∧
  (∀ (i : Instr) (s t : State), exec i s = .next t → i ≠ .reset → (i = .tick → s.life ≠ .running) →
    t.outA = s.outA ∧ t.outB = s.outB)

/-- R104, R106, R107: the sample of a phase word, with and without interpolation, as the spec's integer formula; the ROM
reads it needs exist. -/
def Obligations.SampleIsTheBlendOfNeighbouringEntries : Prop :=
  ∀ (c : Config) (p : Word), c.legal = true → p.toNat < 2 ^ c.w →
    p.toNat * c.n < 2 ^ (c.w + 17) ∧ p.toNat * c.n / 2 ^ c.w ≤ c.n - 1 ∧
    ∃ y0 y1 v : Sample,
      c.table[p.toNat * c.n / 2 ^ c.w]? = some y0 ∧ c.table[(p.toNat * c.n / 2 ^ c.w + 1) % c.n]? = some y1 ∧
      sample c p = some v ∧
      |((y1.toNat : Int) - (y0.toNat : Int)) * ((p.toNat * c.n % 2 ^ c.w : Nat) : Int)| < 2 ^ (c.a + c.w) ∧
      (c.interp = false → v = y0) ∧
      (c.interp = true → (v.toNat : Int) =
        (y0.toNat : Int) + ((y1.toNat : Int) - (y0.toNat : Int)) * ((p.toNat * c.n % 2 ^ c.w : Nat) : Int) / (2 ^ c.w : Int))

/-- R105: with N = 2^K and K at most W, Decompose is bit slicing, for K = W the weight is 0; with N a multiple of 2^W above
it the weight is 0 and only every (N / 2^W)-th entry is read; and REF's slices. -/
def Obligations.DecomposeIsBitSlicingForPowersOfTwo : Prop :=
  (∀ (c : Config) (p : Word) (k : Nat), p.toNat < 2 ^ c.w → c.n = 2 ^ k → k ≤ c.w →
    phaseIndex c p = p.toNat / 2 ^ (c.w - k) ∧ phaseFrac c p = p.toNat % 2 ^ (c.w - k) * 2 ^ k ∧
    (k = c.w → phaseFrac c p = 0)) ∧
  (∀ (c : Config) (p : Word) (m : Nat), c.n = m * 2 ^ c.w → phaseFrac c p = 0 ∧ phaseIndex c p = p.toNat * m) ∧
  (∀ p : Word, p.toNat < 65536 → phaseIndex Config.ref p = (p.extractLsb' 8 8).toNat ∧
    phaseFrac Config.ref p = (p.extractLsb' 0 8).toNat * 256)

/-- R109: the interpolated value lies between the two entries, Clamp never changes it, and when it reaches the second. -/
def Obligations.InterpolatedValueLiesBetweenTheEntries : Prop :=
  ∀ (c : Config) (y0 y1 : Sample) (frac : Nat), c.legal = true → y0.toNat < 2 ^ c.a → y1.toNat < 2 ^ c.a →
    frac < 2 ^ c.w →
    min ((y1.toNat : Int) - y0.toNat) 0 ≤ ((y1.toNat : Int) - y0.toNat) * (frac : Int) / (2 ^ c.w : Int) ∧
    ((y1.toNat : Int) - y0.toNat) * (frac : Int) / (2 ^ c.w : Int) ≤ max ((y1.toNat : Int) - y0.toNat) 0 ∧
    min (y0.toNat : Int) y1.toNat ≤ blend c y0.toNat y1.toNat frac ∧
    blend c y0.toNat y1.toNat frac ≤ max (y0.toNat : Int) y1.toNat ∧
    ((clampSample c (blend c y0.toNat y1.toNat frac)).toNat : Int) = blend c y0.toNat y1.toNat frac ∧
    (y0.toNat < y1.toNat → blend c y0.toNat y1.toNat frac ≤ (y1.toNat : Int) - 1) ∧
    (y1.toNat < y0.toNat → (blend c y0.toNat y1.toNat frac = y1.toNat ↔
      ((y1.toNat : Int) - y0.toNat) * (frac : Int) < ((y1.toNat : Int) - y0.toNat + 1) * (2 ^ c.w : Int))) ∧
    (y0.toNat = y1.toNat + 1 → 0 < frac → blend c y0.toNat y1.toNat frac = y1.toNat) ∧
    (y1.toNat = y0.toNat + 1 → blend c y0.toNat y1.toNat frac = y0.toNat)

/-- R143: with OFF = 0 both channels emit the same value. -/
def Obligations.ZeroOffsetMakesTheChannelsEqual : Prop :=
  ∀ s : State, s.cfg.legal = true → s.acc.toNat < 2 ^ s.cfg.w → s.life = .running → s.off = 0 →
    ∃ (t : State) (v : Sample), exec .tick s = .next t ∧ t.outA = v ∧ t.outB = v ∧
      t.trace = s.trace ++ [.sinkWrite .chA v, .sinkWrite .chB v]

/-- R129: L = 2^W / gcd(2^W, INC) TICKs bring ACC back, no smaller positive number does, and L is even. -/
def Obligations.AccumulatorClosesItsCycle : Prop :=
  ∀ s : State, s.cfg.legal = true → s.acc.toNat < 2 ^ s.cfg.w → s.life = .running → 1 ≤ s.inc.toNat →
    s.inc.toNat ≤ 2 ^ s.cfg.w - 1 →
    (∃ t, ticks (cycleTicks s) s = .next t ∧ t.acc = s.acc) ∧
    (∀ (m : Nat) (t : State), 0 < m → m < cycleTicks s → ticks m s = .next t → t.acc ≠ s.acc) ∧
    2 ∣ cycleTicks s

/-- R144: 180 degrees gives OFF = 2^(W-1), and with that OFF channel B's sample at tick k is channel A's at tick k + L/2. -/
def Obligations.HalfTurnOffsetIsHalfACycleLater : Prop :=
  (∀ c : Config, c.legal = true → phaseToOff c (normPhase (180 * 65536)) = 2 ^ (c.w - 1)) ∧
  ∀ (s : State) (k : Nat), s.cfg.legal = true → s.acc.toNat < 2 ^ s.cfg.w → s.life = .running →
    1 ≤ s.inc.toNat → s.inc.toNat ≤ 2 ^ s.cfg.w - 1 → s.off.toNat = 2 ^ (s.cfg.w - 1) →
    ∃ t u : State, ticks (k + 1) s = .next t ∧ ticks (k + cycleTicks s / 2 + 1) s = .next u ∧ t.outB = u.outA

/-! ## Conversions -/

/-- R127: for a code of the band the upper increment clamp is never active, and at FMAX the quotient is 2^(W-1). -/
def Obligations.UpperIncrementClampIsNeverActive : Prop :=
  ∀ (c : Config) (f : Nat), c.legal = true → f ≤ c.sr * 128 →
    rawInc c f ≤ 2 ^ (c.w - 1) ∧ freqToInc c f ≤ 2 ^ (c.w - 1) ∧ freqToInc c f = max 1 (rawInc c f) ∧
    c.sr * 128 * 2 ^ c.w = 2 ^ (c.w - 1) * (c.sr * 256) ∧ rawInc c (c.sr * 128) = 2 ^ (c.w - 1)

/-- R126, in units of 1/256 Hz scaled by 2^W: the half-step bound when `raw` is at least 1, which holds whenever N ≤ 2^W; the
one-step bound always; FREQ_ACH within a further half unit; and a configuration with N > 2^W where the bound fails. -/
def Obligations.FrequencyQuantisationIsBounded : Prop :=
  (∀ (c : Config) (f : Nat), c.legal = true → c.fmin ≤ f → f ≤ c.fmax →
    (1 ≤ rawInc c f →
      2 * |((freqToInc c f * (c.sr * 256) : Nat) : Int) - ((f * 2 ^ c.w : Nat) : Int)| ≤ ((c.sr * 256 : Nat) : Int) ∧
      2 * |((incToFreq c (freqToInc c f) * 2 ^ c.w : Nat) : Int) - ((f * 2 ^ c.w : Nat) : Int)| ≤
        ((c.sr * 256 + 2 ^ c.w : Nat) : Int)) ∧
    (c.n ≤ 2 ^ c.w → 1 ≤ rawInc c f) ∧
    (rawInc c f = 0 → 2 * (f * 2 ^ c.w) < c.sr * 256 ∧ freqToInc c f = 1 ∧
      0 < ((freqToInc c f * (c.sr * 256) : Nat) : Int) - ((f * 2 ^ c.w : Nat) : Int) ∧
      ((freqToInc c f * (c.sr * 256) : Nat) : Int) - ((f * 2 ^ c.w : Nat) : Int) < ((c.sr * 256 : Nat) : Int)) ∧
    |((freqToInc c f * (c.sr * 256) : Nat) : Int) - ((f * 2 ^ c.w : Nat) : Int)| ≤ ((c.sr * 256 : Nat) : Int)) ∧
  (∃ (c : Config) (f : Nat), c.legal = true ∧ 2 ^ c.w < c.n ∧ c.fmin ≤ f ∧ f ≤ c.fmax ∧ rawInc c f = 0 ∧
    ((c.sr * 256 : Nat) : Int) < 2 * |((freqToInc c f * (c.sr * 256) : Nat) : Int) - ((f * 2 ^ c.w : Nat) : Int)|)

/-- R128, in units of a phase code scaled by 2^W: OFF lies within half a step of the normalised request around the circle
(k is the turn that 359.99… degrees may round up by), and PHASE reads the normalised request itself back. -/
def Obligations.PhaseQuantisationIsBounded : Prop :=
  (∀ (c : Config) (d : Word), c.legal = true →
    ∃ k : Int, (k = 0 ∨ k = 1) ∧
      2 * |(phaseToOff c (normPhase d.toInt) : Int) * 23592960 + k * 23592960 * (2 ^ c.w : Int)
        - (normPhase d.toInt : Int) * (2 ^ c.w : Int)| ≤ 23592960) ∧
  (∀ (s t : State) (d : Word), s.life ≠ .uninit → exec (.wrPhase d) s = .next t →
    ∃ v : Word, (v.toNat : Int) = d.toInt % 23592960 ∧
      exec .rdPhase t = .next { t with trace := t.trace ++ [.response .ok v] })

/-! ## Register writes and reads -/

/-- R161 with R121 and R122: WR_FREQ in STOPPED and RUNNING, to the last element, and its error in UNINIT. -/
def Obligations.WriteFrequencyLoadsTheClampedCodeAndItsIncrement : Prop :=
  (∀ d : Word, decode (0x40000008#32 ++ d) = .ok (.wrFreq d)) ∧
  (∀ (s : State) (d : Word), s.cfg.legal = true → s.life ≠ .uninit →
    ∃ f g : Word,
      f.toNat = min (max d.toNat ((s.cfg.sr * 256 + 2 * s.cfg.n - 1) / (2 * s.cfg.n))) (s.cfg.sr * 128) ∧
      g.toNat = min (max ((2 * (f.toNat * 2 ^ s.cfg.w) + s.cfg.sr * 256) / (2 * (s.cfg.sr * 256))) 1) (2 ^ s.cfg.w - 1) ∧
      exec (.wrFreq d) s = .next { s with freqReq := f, inc := g, trace := s.trace ++ [.response .ok 0] }) ∧
  (∀ (s : State) (d : Word), s.life = .uninit →
    exec (.wrFreq d) s = .next { s with eNotInit := true, trace := s.trace ++ [.response .err 0] })

/-- R163 with R124 and R125: WR_PHASE in STOPPED and RUNNING, to the last element, and its error in UNINIT. -/
def Obligations.WritePhaseLoadsTheNormalisedCodeAndItsOffset : Prop :=
  (∀ d : Word, decode (0x4000000C#32 ++ d) = .ok (.wrPhase d)) ∧
  (∀ (s : State) (d : Word), s.cfg.legal = true → s.life ≠ .uninit →
    ∃ f g : Word,
      (f.toNat : Int) = d.toInt % 23592960 ∧
      g.toNat = (2 * (f.toNat * 2 ^ s.cfg.w) + 23592960) / (2 * 23592960) % 2 ^ s.cfg.w ∧
      exec (.wrPhase d) s = .next { s with phaseReq := f, off := g, trace := s.trace ++ [.response .ok 0] }) ∧
  (∀ (s : State) (d : Word), s.life = .uninit →
    exec (.wrPhase d) s = .next { s with eNotInit := true, trace := s.trace ++ [.response .err 0] })

/-- R170: WR_STATUS clears the error bits written as 1 and ignores every other data bit. -/
def Obligations.WriteStatusClearsTheBitsWrittenAsOne : Prop :=
  (∀ d : Word, decode (0x40000004#32 ++ d) = .ok (.wrStatus d)) ∧
  ∀ (s : State) (d : Word), exec (.wrStatus d) s = .next { s with
    eNotInit := s.eNotInit && !d.getLsbD 8, eState := s.eState && !d.getLsbD 9, eCmd := s.eCmd && !d.getLsbD 10,
    eAddr := s.eAddr && !d.getLsbD 11, trace := s.trace ++ [.response .ok 0] }

/-- R169 (with R36): the word a read of STATUS returns, bit by bit, in every lifecycle state; reading clears nothing. -/
def Obligations.ReadStatusReturnsLifecycleAndErrorBits : Prop :=
  decode 0x0000000400000000 = .ok .rdStatus ∧
  ∀ s : State, ∃ v : Word,
    exec .rdStatus s = .next { s with trace := s.trace ++ [.response .ok v] } ∧
    (v.getLsbD 0 = true ↔ s.life = .stopped ∨ s.life = .running) ∧ (v.getLsbD 1 = true ↔ s.life = .running) ∧
    v.getLsbD 8 = s.eNotInit ∧ v.getLsbD 9 = s.eState ∧ v.getLsbD 10 = s.eCmd ∧ v.getLsbD 11 = s.eAddr ∧
    (∀ k, (2 ≤ k ∧ k ≤ 7) ∨ (12 ≤ k ∧ k ≤ 31) → v.getLsbD k = false) ∧
    ¬(v.getLsbD 1 = true ∧ v.getLsbD 0 = false)

/-- R171, R172, R173 (with R43, R44, R45): the words of the constant registers, field by field, in every lifecycle state. -/
def Obligations.ReadConfigurationReturnsTheParameters : Prop :=
  decode 0x0000002000000000 = .ok .rdConfig ∧ decode 0x0000002400000000 = .ok .rdTableSize ∧
  decode 0x0000002800000000 = .ok .rdSampleRate ∧
  ∀ s : State, s.cfg.legal = true → ∃ v n r : Word,
    exec .rdConfig s = .next { s with trace := s.trace ++ [.response .ok v] } ∧
    exec .rdTableSize s = .next { s with trace := s.trace ++ [.response .ok n] } ∧
    exec .rdSampleRate s = .next { s with trace := s.trace ++ [.response .ok r] } ∧
    (v.extractLsb' 0 6).toNat = s.cfg.w ∧ v.extractLsb' 6 2 = 0 ∧ (v.extractLsb' 8 5).toNat = s.cfg.a ∧
    v.extractLsb' 13 3 = 0 ∧ v.getLsbD 16 = s.cfg.interp ∧ v.extractLsb' 17 15 = 0 ∧
    n.toNat = s.cfg.n ∧ r.toNat = s.cfg.sr

/-- R162, R164, R165, R166, R167 (with R39, R40, R41): the reads of an initialised block, the ranges the invariant gives
the values read, and the error in UNINIT. -/
def Obligations.ReadsOfTheEngineReturnItsElements : Prop :=
  decode 0x0000000800000000 = .ok .rdFreq ∧ decode 0x0000000C00000000 = .ok .rdPhase ∧
  decode 0x0000001000000000 = .ok .rdInc ∧ decode 0x0000001400000000 = .ok .rdOffset ∧
  decode 0x0000001800000000 = .ok .rdAcc ∧
  (∀ s : State, s.life ≠ .uninit →
    exec .rdFreq s = .next { s with trace := s.trace ++ [.response .ok s.freqReq] } ∧
    exec .rdPhase s = .next { s with trace := s.trace ++ [.response .ok s.phaseReq] } ∧
    exec .rdInc s = .next { s with trace := s.trace ++ [.response .ok s.inc] } ∧
    exec .rdOffset s = .next { s with trace := s.trace ++ [.response .ok s.off] } ∧
    exec .rdAcc s = .next { s with trace := s.trace ++ [.response .ok s.acc] } ∧
    (s.Inv →
      s.cfg.fmin ≤ s.freqReq.toNat ∧ s.freqReq.toNat ≤ s.cfg.fmax ∧
      s.phaseReq.toNat < 23592960 ∧ s.phaseReq.getLsbD 31 = false ∧
      1 ≤ s.inc.toNat ∧ s.inc.toNat ≤ 2 ^ s.cfg.w - 1 ∧
      ∀ k, s.cfg.w ≤ k → s.inc.getLsbD k = false ∧ s.off.getLsbD k = false ∧ s.acc.getLsbD k = false)) ∧
  (∀ (s : State) (i : Instr), s.life = .uninit → i ∈ [Instr.rdFreq, .rdPhase, .rdInc, .rdOffset, .rdAcc] →
    exec i s = .next { s with eNotInit := true, trace := s.trace ++ [.response .err 0] })

/-- R42, R123, R168: FREQ_ACH is computed from INC, rounded half up once, lies within half a unit of the exact value (in
units of 1/256 Hz, scaled by 2^W), and fits its 32 bits. -/
def Obligations.ReadAchievedFrequencyRoundsTheIncrement : Prop :=
  decode 0x0000001C00000000 = .ok .rdFreqAch ∧
  (∀ s : State, s.cfg.legal = true → s.inc.toNat < 2 ^ s.cfg.w → s.life ≠ .uninit → ∃ v : Word,
    v.toNat = (2 * (s.inc.toNat * (s.cfg.sr * 256)) + 2 ^ s.cfg.w) / (2 * 2 ^ s.cfg.w) ∧
    v.toNat ≤ s.cfg.sr * 256 ∧
    2 * |((v.toNat * 2 ^ s.cfg.w : Nat) : Int) - ((s.inc.toNat * (s.cfg.sr * 256) : Nat) : Int)| ≤ 2 ^ s.cfg.w ∧
    exec .rdFreqAch s = .next { s with trace := s.trace ++ [.response .ok v] }) ∧
  (∀ (s : State), s.life = .uninit →
    exec .rdFreqAch s = .next { s with eNotInit := true, trace := s.trace ++ [.response .err 0] })

/-- R174, and R213 (R191's reserved codes): the accesses and codes that raise in every lifecycle state, by their words. -/
def Obligations.IllegalAccessesAndReservedCodesRaise : Prop :=
  (∀ (s : State) (a : Offset), (a.extractLsb' 0 2 ≠ 0 ∨ 0x2C ≤ a.toNat ∨ a = 0) →
    decode (0b00#2 ++ 0#22 ++ a ++ 0#32) = .ok (.rdIllegal a) ∧
    exec (.rdIllegal a) s = .next { s with eAddr := true, trace := s.trace ++ [.response .err 0] }) ∧
  (∀ (s : State) (a : Offset) (d : Word), (a ≠ 0x00 ∧ a ≠ 0x04 ∧ a ≠ 0x08 ∧ a ≠ 0x0C) →
    decode (0b01#2 ++ 0#22 ++ a ++ d) = .ok (.wrIllegal a d) ∧
    exec (.wrIllegal a d) s = .next { s with eAddr := true, trace := s.trace ++ [.response .err 0] }) ∧
  (∀ (s : State) (d : Word), (d ≠ 1 ∧ d ≠ 2 ∧ d ≠ 3 ∧ d ≠ 4) →
    decode (0x40000000#32 ++ d) = .ok (.cmdRsvd d) ∧
    exec (.cmdRsvd d) s = .next { s with eCmd := true, trace := s.trace ++ [.response .err 0] })

/-- R175: the control operations of an uninitialised block raise E_NOTINIT and change nothing else. -/
def Obligations.ControlBeforeInitRaisesNotInitialised : Prop :=
  ∀ (s : State) (i : Instr) (d : Word), s.life = .uninit →
    i ∈ [Instr.rdFreq, .rdPhase, .rdInc, .rdOffset, .rdAcc, .rdFreqAch, .wrFreq d, .wrPhase d, .cmdStart, .cmdStop] →
    exec i s = .next { s with eNotInit := true, trace := s.trace ++ [.response .err 0] }

/-! ## Lifecycle -/

/-- R192: CMD_INIT from UNINIT loads the parameters through the conversions; elsewhere it raises E_STATE. -/
def Obligations.InitLoadsTheParameters : Prop :=
  decode 0x4000000000000001 = .ok .cmdInit ∧
  (∀ s : State, s.cfg.legal = true → s.life = .uninit →
    ∃ f g p o : Word,
      f.toNat = min (max s.cfg.initFreq.toNat ((s.cfg.sr * 256 + 2 * s.cfg.n - 1) / (2 * s.cfg.n))) (s.cfg.sr * 128) ∧
      g.toNat = min (max ((2 * (f.toNat * 2 ^ s.cfg.w) + s.cfg.sr * 256) / (2 * (s.cfg.sr * 256))) 1) (2 ^ s.cfg.w - 1) ∧
      (p.toNat : Int) = s.cfg.initPhase.toInt % 23592960 ∧
      o.toNat = (2 * (p.toNat * 2 ^ s.cfg.w) + 23592960) / (2 * 23592960) % 2 ^ s.cfg.w ∧
      exec .cmdInit s = .next { s with
        acc := 0, freqReq := f, inc := g, phaseReq := p, off := o, life := .stopped,
        trace := s.trace ++ [.response .ok 0] }) ∧
  (∀ s : State, s.life ≠ .uninit →
    exec .cmdInit s = .next { s with eState := true, trace := s.trace ++ [.response .err 0] })

/-- R193, R194, R195: CMD_DEINIT in every state; CMD_START and CMD_STOP when initialised, ACC and the outputs kept, and
their error in UNINIT. -/
def Obligations.DeinitStartAndStopSetTheLifecycle : Prop :=
  decode 0x4000000000000002 = .ok .cmdDeinit ∧ decode 0x4000000000000003 = .ok .cmdStart ∧
  decode 0x4000000000000004 = .ok .cmdStop ∧
  (∀ s : State, exec .cmdDeinit s = .next { s with
    life := .uninit, acc := 0, inc := 0, off := 0, freqReq := 0, phaseReq := 0,
    trace := s.trace ++ [.response .ok 0] }) ∧
  (∀ s : State, s.life ≠ .uninit →
    exec .cmdStart s = .next { s with life := .running, trace := s.trace ++ [.response .ok 0] } ∧
    exec .cmdStop s = .next { s with life := .stopped, trace := s.trace ++ [.response .ok 0] }) ∧
  (∀ (s : State) (i : Instr), s.life = .uninit → i ∈ [Instr.cmdStart, .cmdStop] →
    exec i s = .next { s with eNotInit := true, trace := s.trace ++ [.response .err 0] })

/-- R190: the transition table of LIFE, with the error of each cell that raises one. -/
def Obligations.LifecycleFollowsTheTransitionTable : Prop :=
  ∀ (i : Instr) (s t : State), exec i s = .next t →
    (t.life = match i, s.life with
      | .cmdInit, .uninit => .stopped
      | .cmdDeinit, _ => .uninit
      | .cmdStart, .stopped => .running
      | .cmdStart, .running => .running
      | .cmdStop, .stopped => .stopped
      | .cmdStop, .running => .stopped
      | .reset, _ => .uninit
      | _, l => l) ∧
    (i = .cmdInit → s.life ≠ .uninit → t.eState = true ∧ t.trace = s.trace ++ [.response .err 0]) ∧
    (i = .cmdStart ∨ i = .cmdStop → s.life = .uninit → t.eNotInit = true ∧ t.trace = s.trace ++ [.response .err 0]) ∧
    (∀ d, i = .cmdRsvd d → t.eCmd = true ∧ t.trace = s.trace ++ [.response .err 0])

/-- R246 (and R60): after CMD_STOP no event but a CMD_START lets the block produce a sample. -/
def Obligations.NoSampleAfterStopUntilStart : Prop :=
  ∀ (s t : State) (es : List Instr), .cmdStart ∉ es → execAll (.cmdStop :: es) s = .next t →
    sinkWrites t.trace = sinkWrites s.trace

/-- R197: stop, anything of the listed kinds (a WR_FREQ too), start: the next sample of channel A is of the ACC that the
stop found. -/
def Obligations.StopThenStartResumesFromTheSamePhase : Prop :=
  ∀ (s : State) (es : List Instr), s.cfg.legal = true → s.acc.toNat < 2 ^ s.cfg.w → s.life = .running →
    (∀ i ∈ es, i = .tick ∨ (∃ d, i = .wrPhase d) ∨ (∃ d, i = .wrStatus d) ∨ (∃ d, i = .wrFreq d) ∨
      i ∈ [Instr.rdStatus, .rdFreq, .rdPhase, .rdInc, .rdOffset, .rdAcc, .rdFreqAch, .rdConfig, .rdTableSize,
        .rdSampleRate] ∨ (∃ a, i = .rdIllegal a)) →
    ∃ (u v : State) (va : Sample), execAll (.cmdStop :: (es ++ [.cmdStart])) s = .next u ∧
      u.life = .running ∧ u.acc = s.acc ∧ sinkWrites u.trace = sinkWrites s.trace ∧
      sample s.cfg s.acc = some va ∧ exec .tick u = .next v ∧ v.outA = va

/-- R250 (and R242): an uninitialised block produces a sample only after a CMD_INIT and, after that, a CMD_START;
CMD_DEINIT and RESET leave it uninitialised; and after one of them, a CMD_INIT and a CMD_START the next sample of channel
A is that of phase 0, whatever ACC was and whatever events stand between (before the CMD_INIT any but another CMD_INIT,
between the two any that is no CMD_START, CMD_DEINIT or RESET), none of which reaches the sink. -/
def Obligations.SamplesNeedInitThenStart : Prop :=
  (∀ (s t : State) (es : List Instr), s.life = .uninit → execAll es s = .next t →
    sinkWrites t.trace ≠ sinkWrites s.trace →
    ∃ es1 es2 es3 : List Instr, es = es1 ++ .cmdInit :: (es2 ++ .cmdStart :: es3)) ∧
  (∀ (i : Instr) (s : State), i ∈ [Instr.cmdDeinit, .reset] → ∃ t, exec i s = .next t ∧ t.life = .uninit ∧
    sinkWrites t.trace = sinkWrites s.trace) ∧
  (∀ (i : Instr) (s : State) (es1 es2 : List Instr), s.cfg.legal = true → i ∈ [Instr.cmdDeinit, .reset] →
    .cmdInit ∉ es1 → .cmdStart ∉ es2 → .cmdDeinit ∉ es2 → .reset ∉ es2 →
    ∃ (u v : State) (va : Sample), execAll (i :: (es1 ++ .cmdInit :: (es2 ++ [.cmdStart]))) s = .next u ∧
      u.life = .running ∧ u.acc = 0 ∧ sinkWrites u.trace = sinkWrites s.trace ∧
      sample s.cfg 0 = some va ∧ exec .tick u = .next v ∧ v.outA = va)

/-! ## Errors -/

/-- R210: an event that answers ERR answers it with read data 0, sets one sticky bit and changes nothing else; a TICK and a
RESET never answer. -/
def Obligations.AnErringTransactionOnlySetsOneBit : Prop :=
  (∀ (i : Instr) (s t : State) (d : Word), exec i s = .next t → t.trace = s.trace ++ [.response .err d] →
    d = 0 ∧
    (t = { s with eNotInit := true, trace := t.trace } ∨ t = { s with eState := true, trace := t.trace } ∨
      t = { s with eCmd := true, trace := t.trace } ∨ t = { s with eAddr := true, trace := t.trace })) ∧
  (∀ (i : Instr) (s t : State) (r : Resp) (d : Word), exec i s = .next t →
    t.trace = s.trace ++ [.response r d] → i ≠ .tick ∧ i ≠ .reset)

/-- R211, R212, R213, R214: the transactions that set each error bit, by the fields of their words, and the bit's place in
the word a read of STATUS returns. -/
def Obligations.EachErrorBitIsSetExactlyByItsCauses : Prop :=
  (∀ s : State, exec .rdStatus s = .next { s with trace := s.trace ++ [.response .ok (statusWord s)] } ∧
    (statusWord s).getLsbD 8 = s.eNotInit ∧ (statusWord s).getLsbD 9 = s.eState ∧
    (statusWord s).getLsbD 10 = s.eCmd ∧ (statusWord s).getLsbD 11 = s.eAddr) ∧
  ∀ (w : TW) (i : Instr) (s t : State), decode w = .ok i → exec i s = .next t →
    (s.eNotInit = false → (t.eNotInit = true ↔ s.life = .uninit ∧
      ((w.extractLsb' 62 2 = 0b00 ∧ w.extractLsb' 32 8 ∈ [(0x08 : Offset), 0x0C, 0x10, 0x14, 0x18, 0x1C]) ∨
       (w.extractLsb' 62 2 = 0b01 ∧ w.extractLsb' 32 8 ∈ [(0x08 : Offset), 0x0C]) ∨
       (w.extractLsb' 62 2 = 0b01 ∧ w.extractLsb' 32 8 = 0x00 ∧ w.extractLsb' 0 32 ∈ [(3 : Word), 4])))) ∧
    (s.eState = false → (t.eState = true ↔ s.life ≠ .uninit ∧
      w.extractLsb' 62 2 = 0b01 ∧ w.extractLsb' 32 8 = 0x00 ∧ w.extractLsb' 0 32 = 1)) ∧
    (s.eCmd = false → (t.eCmd = true ↔
      w.extractLsb' 62 2 = 0b01 ∧ w.extractLsb' 32 8 = 0x00 ∧ w.extractLsb' 0 32 ∉ [(1 : Word), 2, 3, 4])) ∧
    (s.eAddr = false → (t.eAddr = true ↔
      (w.extractLsb' 62 2 = 0b00 ∧ (w.extractLsb' 32 2 ≠ 0 ∨ 0x2C ≤ (w.extractLsb' 32 8).toNat ∨ w.extractLsb' 32 8 = 0)) ∨
      (w.extractLsb' 62 2 = 0b01 ∧ (w.extractLsb' 32 2 ≠ 0 ∨ 0x10 ≤ (w.extractLsb' 32 8).toNat))))

/-- R217: exactly one error per transaction, the address check before the command decode before the lifecycle check; a
transaction that passes all three answers OK; and a TICK after an erring transaction produces what it would have produced
before it. -/
def Obligations.ErrorsAreRaisedInTheOrderOfPrecedence : Prop :=
  (∀ (s : State) (a : Offset) (d : Word),
    (∃ i, decode (0b01#2 ++ 0#22 ++ a ++ d) = .ok i ∧
      if a ∉ [(0x00 : Offset), 0x04, 0x08, 0x0C] then
        exec i s = .next { s with eAddr := true, trace := s.trace ++ [.response .err 0] }
      else if a = 0 ∧ d ∉ [(1 : Word), 2, 3, 4] then
        exec i s = .next { s with eCmd := true, trace := s.trace ++ [.response .err 0] }
      else if a = 0 ∧ d = 1 ∧ s.life ≠ .uninit then
        exec i s = .next { s with eState := true, trace := s.trace ++ [.response .err 0] }
      else if ((a = 0 ∧ d ∈ [(3 : Word), 4]) ∨ a = 0x08 ∨ a = 0x0C) ∧ s.life = .uninit then
        exec i s = .next { s with eNotInit := true, trace := s.trace ++ [.response .err 0] }
      else ∃ t, exec i s = .next t ∧ t.trace = s.trace ++ [.response .ok 0]) ∧
    (∃ i, decode (0b00#2 ++ 0#22 ++ a ++ 0#32) = .ok i ∧
      if a.extractLsb' 0 2 ≠ 0 ∨ 0x2C ≤ a.toNat ∨ a = 0 then
        exec i s = .next { s with eAddr := true, trace := s.trace ++ [.response .err 0] }
      else if a ∈ [(0x08 : Offset), 0x0C, 0x10, 0x14, 0x18, 0x1C] ∧ s.life = .uninit then
        exec i s = .next { s with eNotInit := true, trace := s.trace ++ [.response .err 0] }
      else ∃ v, exec i s = .next { s with trace := s.trace ++ [.response .ok v] })) ∧
  (∀ (i : Instr) (s e t : State) (d : Word), exec i s = .next e → e.trace = s.trace ++ [.response .err d] →
    exec .tick s = .next t →
    ∃ u, exec .tick e = .next u ∧ u.acc = t.acc ∧ u.outA = t.outA ∧ u.outB = t.outB ∧
      sinkWrites u.trace = sinkWrites t.trace)

/-- R218: an error bit once set stays set through every event but a WR_STATUS with a 1 in its position and a RESET, and
these two clear it. -/
def Obligations.ErrorBitsStayUntilClearedOrReset : Prop :=
  (∀ (i : Instr) (s t : State), exec i s = .next t → i ≠ .reset →
    (s.eNotInit = true → t.eNotInit = true ∨ ∃ d, i = .wrStatus d ∧ d.getLsbD 8 = true) ∧
    (s.eState = true → t.eState = true ∨ ∃ d, i = .wrStatus d ∧ d.getLsbD 9 = true) ∧
    (s.eCmd = true → t.eCmd = true ∨ ∃ d, i = .wrStatus d ∧ d.getLsbD 10 = true) ∧
    (s.eAddr = true → t.eAddr = true ∨ ∃ d, i = .wrStatus d ∧ d.getLsbD 11 = true)) ∧
  (∀ (s t : State) (d : Word), exec (.wrStatus d) s = .next t →
    (d.getLsbD 8 = true → t.eNotInit = false) ∧ (d.getLsbD 9 = true → t.eState = false) ∧
    (d.getLsbD 10 = true → t.eCmd = false) ∧ (d.getLsbD 11 = true → t.eAddr = false)) ∧
  (∀ s t : State, exec .reset s = .next t →
    t.eNotInit = false ∧ t.eState = false ∧ t.eCmd = false ∧ t.eAddr = false)

/-! ## Ordering of control writes -/

/-- 20_memory.md sections 2 and 3 (R57): every event but a TICK and a CMD_INIT done twice leaves the state of doing it once,
but for the answer it gives again; a second CMD_INIT raises E_STATE. -/
def Obligations.RepeatingAnEventIsIdempotent : Prop :=
  (∀ (i : Instr) (s t u : State), i ≠ .tick → i ≠ .cmdInit → exec i s = .next t → exec i t = .next u →
    u = { t with trace := u.trace }) ∧
  (∀ s t u : State, exec .cmdInit s = .next t → exec .cmdInit t = .next u →
    u = { t with eState := true, trace := t.trace ++ [.response .err 0] })

/-- 20_memory.md section 3 (R59): WR_FREQ and WR_PHASE write different elements, so their order does not matter once both
are done. -/
def Obligations.FrequencyAndPhaseWritesCommute : Prop :=
  ∀ (s : State) (c d : Word),
    ∃ t : State, execAll [.wrFreq c, .wrPhase d] s = .next t ∧ execAll [.wrPhase d, .wrFreq c] s = .next t

/-! ## Assembler -/

/-- R83: the pseudo-instructions and their expansions, and the operands the assembler refuses. -/
def Obligations.PseudoInstructionsExpandAsListed : Prop :=
  assemble .init = assemble (.wr .cmd 1) ∧ assemble .deinit = assemble (.wr .cmd 2) ∧
  assemble .start = assemble (.wr .cmd 3) ∧ assemble .stop = assemble (.wr .cmd 4) ∧
  assemble .getFreq = assemble (.rd .freq) ∧ assemble .getPhase = assemble (.rd .phase) ∧
  assemble .clrErr = assemble (.wr .status 0x0F00) ∧
  (∀ n : Nat, assemble (.ticks n) = some (List.replicate n (encode .tick))) ∧
  (∀ (hz : Ratio) (v : Int), 0 < hz.den → hz.num * 256 = v * hz.den → 0 ≤ v → v < 2 ^ 32 →
    assemble (.setFreq hz) = assemble (.wr .freq v)) ∧
  (∀ hz : Ratio, 0 < hz.den → (¬∃ v : Int, hz.num * 256 = v * hz.den ∧ 0 ≤ v ∧ v < 2 ^ 32) →
    assemble (.setFreq hz) = none) ∧
  (∀ (deg : Ratio) (v : Int), 0 < deg.den → deg.num * 65536 = v * deg.den → -2 ^ 31 ≤ v → v < 2 ^ 31 →
    assemble (.setPhase deg) = assemble (.wr .phase v)) ∧
  (∀ deg : Ratio, 0 < deg.den → (¬∃ v : Int, deg.num * 65536 = v * deg.den ∧ -2 ^ 31 ≤ v ∧ v < 2 ^ 31) →
    assemble (.setPhase deg) = none)

/-- 30_encoding.md section 5 (R82): every word the assembler makes spells an event. -/
def Obligations.AssembledWordsDecode : Prop :=
  ∀ (a : Asm) (ws : List TW), assemble a = some ws → ∀ w ∈ ws, ∃ i, decode w = .ok i
end

