-- ==== Sys2Proof/Laws/State.lean ====
section
/-! SUPPORT. One lemma for each field and each update of the state, so that no proof unfolds a record update. -/

namespace Sys2Proof.Machine

/-! ## `respond` -/

@[simp] theorem respond_cfg (r : Resp) (d : Word) (s : State) : (respond r d s).cfg = s.cfg := rfl
@[simp] theorem respond_acc (r : Resp) (d : Word) (s : State) : (respond r d s).acc = s.acc := rfl
@[simp] theorem respond_inc (r : Resp) (d : Word) (s : State) : (respond r d s).inc = s.inc := rfl
@[simp] theorem respond_off (r : Resp) (d : Word) (s : State) : (respond r d s).off = s.off := rfl
@[simp] theorem respond_life (r : Resp) (d : Word) (s : State) : (respond r d s).life = s.life := rfl
@[simp] theorem respond_freqReq (r : Resp) (d : Word) (s : State) : (respond r d s).freqReq = s.freqReq := rfl
@[simp] theorem respond_phaseReq (r : Resp) (d : Word) (s : State) : (respond r d s).phaseReq = s.phaseReq := rfl
@[simp] theorem respond_eNotInit (r : Resp) (d : Word) (s : State) : (respond r d s).eNotInit = s.eNotInit := rfl
@[simp] theorem respond_eState (r : Resp) (d : Word) (s : State) : (respond r d s).eState = s.eState := rfl
@[simp] theorem respond_eCmd (r : Resp) (d : Word) (s : State) : (respond r d s).eCmd = s.eCmd := rfl
@[simp] theorem respond_eAddr (r : Resp) (d : Word) (s : State) : (respond r d s).eAddr = s.eAddr := rfl
@[simp] theorem respond_outA (r : Resp) (d : Word) (s : State) : (respond r d s).outA = s.outA := rfl
@[simp] theorem respond_outB (r : Resp) (d : Word) (s : State) : (respond r d s).outB = s.outB := rfl
@[simp] theorem respond_trace (r : Resp) (d : Word) (s : State) : (respond r d s).trace = s.trace ++ [.response r d] := rfl
@[simp] theorem respond_events (r : Resp) (d : Word) (s : State) : (respond r d s).events = s.events := rfl

/-! ## `clearErrors` -/

@[simp] theorem clearErrors_cfg (m : BitVec 4) (s : State) : (clearErrors m s).cfg = s.cfg := rfl
@[simp] theorem clearErrors_acc (m : BitVec 4) (s : State) : (clearErrors m s).acc = s.acc := rfl
@[simp] theorem clearErrors_inc (m : BitVec 4) (s : State) : (clearErrors m s).inc = s.inc := rfl
@[simp] theorem clearErrors_off (m : BitVec 4) (s : State) : (clearErrors m s).off = s.off := rfl
@[simp] theorem clearErrors_life (m : BitVec 4) (s : State) : (clearErrors m s).life = s.life := rfl
@[simp] theorem clearErrors_freqReq (m : BitVec 4) (s : State) : (clearErrors m s).freqReq = s.freqReq := rfl
@[simp] theorem clearErrors_phaseReq (m : BitVec 4) (s : State) : (clearErrors m s).phaseReq = s.phaseReq := rfl
@[simp] theorem clearErrors_eNotInit (m : BitVec 4) (s : State) : (clearErrors m s).eNotInit = (s.eNotInit && !m.getLsbD 0) := rfl
@[simp] theorem clearErrors_eState (m : BitVec 4) (s : State) : (clearErrors m s).eState = (s.eState && !m.getLsbD 1) := rfl
@[simp] theorem clearErrors_eCmd (m : BitVec 4) (s : State) : (clearErrors m s).eCmd = (s.eCmd && !m.getLsbD 2) := rfl
@[simp] theorem clearErrors_eAddr (m : BitVec 4) (s : State) : (clearErrors m s).eAddr = (s.eAddr && !m.getLsbD 3) := rfl
@[simp] theorem clearErrors_outA (m : BitVec 4) (s : State) : (clearErrors m s).outA = s.outA := rfl
@[simp] theorem clearErrors_outB (m : BitVec 4) (s : State) : (clearErrors m s).outB = s.outB := rfl
@[simp] theorem clearErrors_trace (m : BitVec 4) (s : State) : (clearErrors m s).trace = s.trace := rfl
@[simp] theorem clearErrors_events (m : BitVec 4) (s : State) : (clearErrors m s).events = s.events := rfl

/-! ## `loadFreq` -/

@[simp] theorem loadFreq_cfg (c : Nat) (s : State) : (loadFreq c s).cfg = s.cfg := rfl
@[simp] theorem loadFreq_acc (c : Nat) (s : State) : (loadFreq c s).acc = s.acc := rfl
@[simp] theorem loadFreq_inc (c : Nat) (s : State) : (loadFreq c s).inc = BitVec.ofNat 32 (freqToInc s.cfg (clampFreq s.cfg c)) := rfl
@[simp] theorem loadFreq_off (c : Nat) (s : State) : (loadFreq c s).off = s.off := rfl
@[simp] theorem loadFreq_life (c : Nat) (s : State) : (loadFreq c s).life = s.life := rfl
@[simp] theorem loadFreq_freqReq (c : Nat) (s : State) : (loadFreq c s).freqReq = BitVec.ofNat 32 (clampFreq s.cfg c) := rfl
@[simp] theorem loadFreq_phaseReq (c : Nat) (s : State) : (loadFreq c s).phaseReq = s.phaseReq := rfl
@[simp] theorem loadFreq_eNotInit (c : Nat) (s : State) : (loadFreq c s).eNotInit = s.eNotInit := rfl
@[simp] theorem loadFreq_eState (c : Nat) (s : State) : (loadFreq c s).eState = s.eState := rfl
@[simp] theorem loadFreq_eCmd (c : Nat) (s : State) : (loadFreq c s).eCmd = s.eCmd := rfl
@[simp] theorem loadFreq_eAddr (c : Nat) (s : State) : (loadFreq c s).eAddr = s.eAddr := rfl
@[simp] theorem loadFreq_outA (c : Nat) (s : State) : (loadFreq c s).outA = s.outA := rfl
@[simp] theorem loadFreq_outB (c : Nat) (s : State) : (loadFreq c s).outB = s.outB := rfl
@[simp] theorem loadFreq_trace (c : Nat) (s : State) : (loadFreq c s).trace = s.trace := rfl
@[simp] theorem loadFreq_events (c : Nat) (s : State) : (loadFreq c s).events = s.events := rfl

/-! ## `loadPhase` -/

@[simp] theorem loadPhase_cfg (d : Int) (s : State) : (loadPhase d s).cfg = s.cfg := rfl
@[simp] theorem loadPhase_acc (d : Int) (s : State) : (loadPhase d s).acc = s.acc := rfl
@[simp] theorem loadPhase_inc (d : Int) (s : State) : (loadPhase d s).inc = s.inc := rfl
@[simp] theorem loadPhase_off (d : Int) (s : State) : (loadPhase d s).off = BitVec.ofNat 32 (phaseToOff s.cfg (normPhase d)) := rfl
@[simp] theorem loadPhase_life (d : Int) (s : State) : (loadPhase d s).life = s.life := rfl
@[simp] theorem loadPhase_freqReq (d : Int) (s : State) : (loadPhase d s).freqReq = s.freqReq := rfl
@[simp] theorem loadPhase_phaseReq (d : Int) (s : State) : (loadPhase d s).phaseReq = BitVec.ofNat 32 (normPhase d) := rfl
@[simp] theorem loadPhase_eNotInit (d : Int) (s : State) : (loadPhase d s).eNotInit = s.eNotInit := rfl
@[simp] theorem loadPhase_eState (d : Int) (s : State) : (loadPhase d s).eState = s.eState := rfl
@[simp] theorem loadPhase_eCmd (d : Int) (s : State) : (loadPhase d s).eCmd = s.eCmd := rfl
@[simp] theorem loadPhase_eAddr (d : Int) (s : State) : (loadPhase d s).eAddr = s.eAddr := rfl
@[simp] theorem loadPhase_outA (d : Int) (s : State) : (loadPhase d s).outA = s.outA := rfl
@[simp] theorem loadPhase_outB (d : Int) (s : State) : (loadPhase d s).outB = s.outB := rfl
@[simp] theorem loadPhase_trace (d : Int) (s : State) : (loadPhase d s).trace = s.trace := rfl
@[simp] theorem loadPhase_events (d : Int) (s : State) : (loadPhase d s).events = s.events := rfl

/-! ## `releaseEngine` -/

@[simp] theorem releaseEngine_cfg (s : State) : (releaseEngine s).cfg = s.cfg := rfl
@[simp] theorem releaseEngine_acc (s : State) : (releaseEngine s).acc = 0 := rfl
@[simp] theorem releaseEngine_inc (s : State) : (releaseEngine s).inc = 0 := rfl
@[simp] theorem releaseEngine_off (s : State) : (releaseEngine s).off = 0 := rfl
@[simp] theorem releaseEngine_life (s : State) : (releaseEngine s).life = .uninit := rfl
@[simp] theorem releaseEngine_freqReq (s : State) : (releaseEngine s).freqReq = 0 := rfl
@[simp] theorem releaseEngine_phaseReq (s : State) : (releaseEngine s).phaseReq = 0 := rfl
@[simp] theorem releaseEngine_eNotInit (s : State) : (releaseEngine s).eNotInit = s.eNotInit := rfl
@[simp] theorem releaseEngine_eState (s : State) : (releaseEngine s).eState = s.eState := rfl
@[simp] theorem releaseEngine_eCmd (s : State) : (releaseEngine s).eCmd = s.eCmd := rfl
@[simp] theorem releaseEngine_eAddr (s : State) : (releaseEngine s).eAddr = s.eAddr := rfl
@[simp] theorem releaseEngine_outA (s : State) : (releaseEngine s).outA = s.outA := rfl
@[simp] theorem releaseEngine_outB (s : State) : (releaseEngine s).outB = s.outB := rfl
@[simp] theorem releaseEngine_trace (s : State) : (releaseEngine s).trace = s.trace := rfl
@[simp] theorem releaseEngine_events (s : State) : (releaseEngine s).events = s.events := rfl

/-! ## `setLife` -/

@[simp] theorem setLife_cfg (l : Life) (s : State) : (setLife l s).cfg = s.cfg := rfl
@[simp] theorem setLife_acc (l : Life) (s : State) : (setLife l s).acc = s.acc := rfl
@[simp] theorem setLife_inc (l : Life) (s : State) : (setLife l s).inc = s.inc := rfl
@[simp] theorem setLife_off (l : Life) (s : State) : (setLife l s).off = s.off := rfl
@[simp] theorem setLife_life (l : Life) (s : State) : (setLife l s).life = l := rfl
@[simp] theorem setLife_freqReq (l : Life) (s : State) : (setLife l s).freqReq = s.freqReq := rfl
@[simp] theorem setLife_phaseReq (l : Life) (s : State) : (setLife l s).phaseReq = s.phaseReq := rfl
@[simp] theorem setLife_eNotInit (l : Life) (s : State) : (setLife l s).eNotInit = s.eNotInit := rfl
@[simp] theorem setLife_eState (l : Life) (s : State) : (setLife l s).eState = s.eState := rfl
@[simp] theorem setLife_eCmd (l : Life) (s : State) : (setLife l s).eCmd = s.eCmd := rfl
@[simp] theorem setLife_eAddr (l : Life) (s : State) : (setLife l s).eAddr = s.eAddr := rfl
@[simp] theorem setLife_outA (l : Life) (s : State) : (setLife l s).outA = s.outA := rfl
@[simp] theorem setLife_outB (l : Life) (s : State) : (setLife l s).outB = s.outB := rfl
@[simp] theorem setLife_trace (l : Life) (s : State) : (setLife l s).trace = s.trace := rfl
@[simp] theorem setLife_events (l : Life) (s : State) : (setLife l s).events = s.events := rfl

/-! ## `emitSamples` -/

@[simp] theorem emitSamples_cfg (va vb : Sample) (s : State) : (emitSamples va vb s).cfg = s.cfg := rfl
@[simp] theorem emitSamples_acc (va vb : Sample) (s : State) : (emitSamples va vb s).acc = s.acc := rfl
@[simp] theorem emitSamples_inc (va vb : Sample) (s : State) : (emitSamples va vb s).inc = s.inc := rfl
@[simp] theorem emitSamples_off (va vb : Sample) (s : State) : (emitSamples va vb s).off = s.off := rfl
@[simp] theorem emitSamples_life (va vb : Sample) (s : State) : (emitSamples va vb s).life = s.life := rfl
@[simp] theorem emitSamples_freqReq (va vb : Sample) (s : State) : (emitSamples va vb s).freqReq = s.freqReq := rfl
@[simp] theorem emitSamples_phaseReq (va vb : Sample) (s : State) : (emitSamples va vb s).phaseReq = s.phaseReq := rfl
@[simp] theorem emitSamples_eNotInit (va vb : Sample) (s : State) : (emitSamples va vb s).eNotInit = s.eNotInit := rfl
@[simp] theorem emitSamples_eState (va vb : Sample) (s : State) : (emitSamples va vb s).eState = s.eState := rfl
@[simp] theorem emitSamples_eCmd (va vb : Sample) (s : State) : (emitSamples va vb s).eCmd = s.eCmd := rfl
@[simp] theorem emitSamples_eAddr (va vb : Sample) (s : State) : (emitSamples va vb s).eAddr = s.eAddr := rfl
@[simp] theorem emitSamples_outA (va vb : Sample) (s : State) : (emitSamples va vb s).outA = va := rfl
@[simp] theorem emitSamples_outB (va vb : Sample) (s : State) : (emitSamples va vb s).outB = vb := rfl
@[simp] theorem emitSamples_trace (va vb : Sample) (s : State) : (emitSamples va vb s).trace = s.trace ++ [.sinkWrite .chA va, .sinkWrite .chB vb] := rfl
@[simp] theorem emitSamples_events (va vb : Sample) (s : State) : (emitSamples va vb s).events = s.events := rfl

/-! ## `advance` -/

@[simp] theorem advance_cfg (s : State) : (advance s).cfg = s.cfg := rfl
@[simp] theorem advance_acc (s : State) : (advance s).acc = phaseAdd s.cfg s.acc s.inc := rfl
@[simp] theorem advance_inc (s : State) : (advance s).inc = s.inc := rfl
@[simp] theorem advance_off (s : State) : (advance s).off = s.off := rfl
@[simp] theorem advance_life (s : State) : (advance s).life = s.life := rfl
@[simp] theorem advance_freqReq (s : State) : (advance s).freqReq = s.freqReq := rfl
@[simp] theorem advance_phaseReq (s : State) : (advance s).phaseReq = s.phaseReq := rfl
@[simp] theorem advance_eNotInit (s : State) : (advance s).eNotInit = s.eNotInit := rfl
@[simp] theorem advance_eState (s : State) : (advance s).eState = s.eState := rfl
@[simp] theorem advance_eCmd (s : State) : (advance s).eCmd = s.eCmd := rfl
@[simp] theorem advance_eAddr (s : State) : (advance s).eAddr = s.eAddr := rfl
@[simp] theorem advance_outA (s : State) : (advance s).outA = s.outA := rfl
@[simp] theorem advance_outB (s : State) : (advance s).outB = s.outB := rfl
@[simp] theorem advance_trace (s : State) : (advance s).trace = s.trace := rfl
@[simp] theorem advance_events (s : State) : (advance s).events = s.events := rfl

/-! ## `pushEvent` -/

@[simp] theorem pushEvent_cfg (w : TW) (s : State) : (pushEvent w s).cfg = s.cfg := rfl
@[simp] theorem pushEvent_acc (w : TW) (s : State) : (pushEvent w s).acc = s.acc := rfl
@[simp] theorem pushEvent_inc (w : TW) (s : State) : (pushEvent w s).inc = s.inc := rfl
@[simp] theorem pushEvent_off (w : TW) (s : State) : (pushEvent w s).off = s.off := rfl
@[simp] theorem pushEvent_life (w : TW) (s : State) : (pushEvent w s).life = s.life := rfl
@[simp] theorem pushEvent_freqReq (w : TW) (s : State) : (pushEvent w s).freqReq = s.freqReq := rfl
@[simp] theorem pushEvent_phaseReq (w : TW) (s : State) : (pushEvent w s).phaseReq = s.phaseReq := rfl
@[simp] theorem pushEvent_eNotInit (w : TW) (s : State) : (pushEvent w s).eNotInit = s.eNotInit := rfl
@[simp] theorem pushEvent_eState (w : TW) (s : State) : (pushEvent w s).eState = s.eState := rfl
@[simp] theorem pushEvent_eCmd (w : TW) (s : State) : (pushEvent w s).eCmd = s.eCmd := rfl
@[simp] theorem pushEvent_eAddr (w : TW) (s : State) : (pushEvent w s).eAddr = s.eAddr := rfl
@[simp] theorem pushEvent_outA (w : TW) (s : State) : (pushEvent w s).outA = s.outA := rfl
@[simp] theorem pushEvent_outB (w : TW) (s : State) : (pushEvent w s).outB = s.outB := rfl
@[simp] theorem pushEvent_trace (w : TW) (s : State) : (pushEvent w s).trace = s.trace := rfl
@[simp] theorem pushEvent_events (w : TW) (s : State) : (pushEvent w s).events = w :: s.events := rfl

/-! ## `setError` and `raise` -/

@[simp] theorem setError_cfg (e : ErrorCode) (s : State) : (setError e s).cfg = s.cfg := by cases e <;> rfl
@[simp] theorem setError_acc (e : ErrorCode) (s : State) : (setError e s).acc = s.acc := by cases e <;> rfl
@[simp] theorem setError_inc (e : ErrorCode) (s : State) : (setError e s).inc = s.inc := by cases e <;> rfl
@[simp] theorem setError_off (e : ErrorCode) (s : State) : (setError e s).off = s.off := by cases e <;> rfl
@[simp] theorem setError_life (e : ErrorCode) (s : State) : (setError e s).life = s.life := by cases e <;> rfl
@[simp] theorem setError_freqReq (e : ErrorCode) (s : State) : (setError e s).freqReq = s.freqReq := by cases e <;> rfl
@[simp] theorem setError_phaseReq (e : ErrorCode) (s : State) : (setError e s).phaseReq = s.phaseReq := by cases e <;> rfl
@[simp] theorem setError_eNotInit (e : ErrorCode) (s : State) : (setError e s).eNotInit = (s.eNotInit || decide (e = .notInit)) := by
  cases e <;> simp [setError]
@[simp] theorem setError_eState (e : ErrorCode) (s : State) : (setError e s).eState = (s.eState || decide (e = .state)) := by
  cases e <;> simp [setError]
@[simp] theorem setError_eCmd (e : ErrorCode) (s : State) : (setError e s).eCmd = (s.eCmd || decide (e = .cmd)) := by
  cases e <;> simp [setError]
@[simp] theorem setError_eAddr (e : ErrorCode) (s : State) : (setError e s).eAddr = (s.eAddr || decide (e = .addr)) := by
  cases e <;> simp [setError]
@[simp] theorem setError_outA (e : ErrorCode) (s : State) : (setError e s).outA = s.outA := by cases e <;> rfl
@[simp] theorem setError_outB (e : ErrorCode) (s : State) : (setError e s).outB = s.outB := by cases e <;> rfl
@[simp] theorem setError_trace (e : ErrorCode) (s : State) : (setError e s).trace = s.trace := by cases e <;> rfl
@[simp] theorem setError_events (e : ErrorCode) (s : State) : (setError e s).events = s.events := by cases e <;> rfl

@[simp] theorem raise_cfg (e : ErrorCode) (s : State) : (raise e s).cfg = s.cfg := by simp [raise]
@[simp] theorem raise_acc (e : ErrorCode) (s : State) : (raise e s).acc = s.acc := by simp [raise]
@[simp] theorem raise_inc (e : ErrorCode) (s : State) : (raise e s).inc = s.inc := by simp [raise]
@[simp] theorem raise_off (e : ErrorCode) (s : State) : (raise e s).off = s.off := by simp [raise]
@[simp] theorem raise_life (e : ErrorCode) (s : State) : (raise e s).life = s.life := by simp [raise]
@[simp] theorem raise_freqReq (e : ErrorCode) (s : State) : (raise e s).freqReq = s.freqReq := by simp [raise]
@[simp] theorem raise_phaseReq (e : ErrorCode) (s : State) : (raise e s).phaseReq = s.phaseReq := by simp [raise]
@[simp] theorem raise_eNotInit (e : ErrorCode) (s : State) : (raise e s).eNotInit = (s.eNotInit || decide (e = .notInit)) := by simp [raise]
@[simp] theorem raise_eState (e : ErrorCode) (s : State) : (raise e s).eState = (s.eState || decide (e = .state)) := by simp [raise]
@[simp] theorem raise_eCmd (e : ErrorCode) (s : State) : (raise e s).eCmd = (s.eCmd || decide (e = .cmd)) := by simp [raise]
@[simp] theorem raise_eAddr (e : ErrorCode) (s : State) : (raise e s).eAddr = (s.eAddr || decide (e = .addr)) := by simp [raise]
@[simp] theorem raise_outA (e : ErrorCode) (s : State) : (raise e s).outA = s.outA := by simp [raise]
@[simp] theorem raise_outB (e : ErrorCode) (s : State) : (raise e s).outB = s.outB := by simp [raise]
@[simp] theorem raise_trace (e : ErrorCode) (s : State) : (raise e s).trace = s.trace ++ [.response .err 0] := by simp [raise]
@[simp] theorem raise_events (e : ErrorCode) (s : State) : (raise e s).events = s.events := by simp [raise]

/-! ## `State.resetOf` -/

@[simp] theorem resetOf_cfg (c : Config) : (State.resetOf c).cfg = c := rfl
@[simp] theorem resetOf_acc (c : Config) : (State.resetOf c).acc = 0 := rfl
@[simp] theorem resetOf_inc (c : Config) : (State.resetOf c).inc = 0 := rfl
@[simp] theorem resetOf_off (c : Config) : (State.resetOf c).off = 0 := rfl
@[simp] theorem resetOf_life (c : Config) : (State.resetOf c).life = .uninit := rfl
@[simp] theorem resetOf_freqReq (c : Config) : (State.resetOf c).freqReq = 0 := rfl
@[simp] theorem resetOf_phaseReq (c : Config) : (State.resetOf c).phaseReq = 0 := rfl
@[simp] theorem resetOf_eNotInit (c : Config) : (State.resetOf c).eNotInit = false := rfl
@[simp] theorem resetOf_eState (c : Config) : (State.resetOf c).eState = false := rfl
@[simp] theorem resetOf_eCmd (c : Config) : (State.resetOf c).eCmd = false := rfl
@[simp] theorem resetOf_eAddr (c : Config) : (State.resetOf c).eAddr = false := rfl
@[simp] theorem resetOf_outA (c : Config) : (State.resetOf c).outA = 0 := rfl
@[simp] theorem resetOf_outB (c : Config) : (State.resetOf c).outB = 0 := rfl
@[simp] theorem resetOf_trace (c : Config) : (State.resetOf c).trace = [] := rfl
@[simp] theorem resetOf_events (c : Config) : (State.resetOf c).events = [] := rfl

end Sys2Proof.Machine
end

