-- ==== Sys2Proof/Laws/Arith.lean ====
section
/-! SUPPORT. What the pure functions of the tick path and of the conversions answer: ranges and, for the words, values. -/

namespace Sys2Proof.Machine

/-! ## Legal configurations -/

theorem tableFits_iff (b n : Nat) (t : List Sample) :
    Config.tableFits b n t = true ↔ t.length = n ∧ ∀ v ∈ t, v.toNat < b := by
  fun_induction Config.tableFits b n t with
  | case1 n t u v x rest ih => simp_all [Config.fourBelow, and_assoc]; tauto
  | case2 n t rest _ ih => simp_all; tauto
  | case3 => simp
  | case4 n t h1 h2 h3 =>
    cases t with
    | nil => cases n with
      | zero => exact absurd rfl (h3 rfl)
      | succ n => simp
    | cons v rest => cases n with
      | zero => simp
      | succ n => exact absurd rfl (h2 n v rest rfl)

/-- What a legal configuration says of its parameters (00_scope.md R7). -/
theorem legal_iff (c : Config) : c.legal = true ↔
    1 ≤ c.w ∧ c.w ≤ 32 ∧ 2 ≤ c.n ∧ c.n ≤ 65536 ∧ 1 ≤ c.a ∧ c.a ≤ 16 ∧ 1 ≤ c.sr ∧ c.sr ≤ 16777215 ∧
      c.table.length = c.n ∧ ∀ v ∈ c.table, v.toNat < 2 ^ c.a := by
  simp [Config.legal, Config.tableLegal, tableFits_iff, and_assoc]

theorem phaseMod_le {c : Config} (h : c.w ≤ 32) : 2 ^ c.w ≤ 4294967296 := by
  calc 2 ^ c.w ≤ 2 ^ 32 := Nat.pow_le_pow_right (by decide) h
    _ = 4294967296 := by norm_num

theorem pow_a_le {c : Config} (h : c.a ≤ 16) : 2 ^ c.a ≤ 65536 := by
  calc 2 ^ c.a ≤ 2 ^ 16 := Nat.pow_le_pow_right (by decide) h
    _ = 65536 := by norm_num

/-! ## Angle arithmetic -/

theorem phaseAdd_toNat {c : Config} (h : c.w ≤ 32) (a b : Word) :
    (phaseAdd c a b).toNat = (a.toNat + b.toNat) % 2 ^ c.w := by
  have h1 := phaseMod_le h
  have h2 : (a.toNat + b.toNat) % 2 ^ c.w < 2 ^ c.w := Nat.mod_lt _ (by positivity)
  simp only [phaseAdd, BitVec.toNat_ofNat]
  exact Nat.mod_eq_of_lt (by omega)

theorem phaseAdd_lt {c : Config} (h : c.w ≤ 32) (a b : Word) : (phaseAdd c a b).toNat < 2 ^ c.w := by
  rw [phaseAdd_toNat h]
  exact Nat.mod_lt _ (by positivity)

theorem phaseIndex_lt {c : Config} {p : Word} (hn : 0 < c.n) (hp : p.toNat < 2 ^ c.w) : phaseIndex c p < c.n := by
  unfold phaseIndex
  exact (Nat.div_lt_iff_lt_mul (by positivity)).mpr (by rw [Nat.mul_comm c.n]; exact Nat.mul_lt_mul_of_pos_right hp hn)

theorem phaseFrac_lt (c : Config) (p : Word) : phaseFrac c p < 2 ^ c.w := Nat.mod_lt _ (by positivity)

theorem nextIndex_lt {c : Config} (hn : 0 < c.n) (i : Nat) : nextIndex c i < c.n := Nat.mod_lt _ hn

/-! ## The ROM and the samples -/

theorem romRead_eq_some {c : Config} {i : Nat} (h : i < c.table.length) : romRead c i = some c.table[i] := by
  simp [romRead, h]

/-- A sample is an A-bit value (40_table_and_angle.md R108). -/
theorem clampSample_lt {c : Config} (ha : c.a ≤ 16) (v : Int) : (clampSample c v).toNat < 2 ^ c.a := by
  have h1 := pow_a_le ha
  have h2 : 0 < 2 ^ c.a := by positivity
  have h3 : (clampInt v 0 c.amax).toNat < 2 ^ c.a := by
    simp only [clampInt, Config.amax]
    omega
  simp only [clampSample, BitVec.toNat_ofNat]
  rw [Nat.mod_eq_of_lt (by omega)]
  exact h3

/-- The clamp of a value that is in range (R108). -/
theorem clampSample_of_range {c : Config} (ha : c.a ≤ 16) {v : Int} (h0 : 0 ≤ v) (h1 : v < 2 ^ c.a) :
    ((clampSample c v).toNat : Int) = v := by
  have h2 := pow_a_le ha
  have h3 : (2 : Int) ^ c.a = ((2 ^ c.a : Nat) : Int) := by push_cast; rfl
  have h4 : (clampInt v 0 c.amax).toNat = v.toNat := by
    simp only [clampInt, Config.amax]
    omega
  rw [clampSample, h4, BitVec.toNat_ofNat, Nat.mod_eq_of_lt] <;> omega

theorem sample_lt {c : Config} {p : Word} {v : Sample} (ha : c.a ≤ 16) (h : sample c p = some v) :
    v.toNat < 2 ^ c.a := by
  unfold sample sampleLinear sampleNearest at h
  split at h <;> split at h <;> simp only [Option.some.injEq, reduceCtorEq] at h <;> subst h <;>
    exact clampSample_lt ha _

/-- Every W-bit phase word has a sample (20_memory.md R51). -/
theorem sample_isSome {c : Config} {p : Word} (h : c.legal = true) (hp : p.toNat < 2 ^ c.w) :
    ∃ v, sample c p = some v := by
  obtain ⟨-, -, hn, -, -, -, -, -, hlen, -⟩ := (legal_iff c).mp h
  have hi := phaseIndex_lt (c := c) (by omega) hp
  have hj := nextIndex_lt (c := c) (by omega) (phaseIndex c p)
  have h1 := romRead_eq_some (c := c) (hlen ▸ hi)
  have h2 := romRead_eq_some (c := c) (hlen ▸ hj)
  cases hc : c.interp <;> simp [sample, hc, sampleLinear, sampleNearest, h1, h2]

/-! ## Conversions -/

/-- `rhu` as the spec writes it (00_scope.md R11). -/
theorem rhu_eq (a b : Nat) : rhu a b = (2 * a + b) / (2 * b) := by rw [rhu, Nat.add_comm]

theorem clampNat_bounds {v lo hi : Nat} (h : lo ≤ hi) : lo ≤ clampNat v lo hi ∧ clampNat v lo hi ≤ hi := by
  unfold clampNat
  omega

theorem fmin_le_fmax {c : Config} (hn : 2 ≤ c.n) (hs : 1 ≤ c.sr) : c.fmin ≤ c.fmax := by
  unfold Config.fmin Config.fmax
  refine Nat.div_le_of_le_mul ?_
  obtain ⟨m, hm⟩ : ∃ m, c.n = m + 2 := ⟨c.n - 2, by omega⟩
  rw [hm]
  have h : 2 * (m + 2) * (c.sr * 128) = 256 * (m * c.sr) + 512 * c.sr := by ring
  have h1 : m * 1 ≤ m * c.sr := Nat.mul_le_mul_left m hs
  omega

theorem freqToInc_bounds {c : Config} (hw : 1 ≤ c.w) (f : Nat) : 1 ≤ freqToInc c f ∧ freqToInc c f ≤ 2 ^ c.w - 1 := by
  have h2 : 2 ≤ 2 ^ c.w := by
    calc 2 = 2 ^ 1 := rfl
      _ ≤ 2 ^ c.w := Nat.pow_le_pow_right (by decide) hw
  exact clampNat_bounds (by simp only [Config.phaseMod]; omega)

theorem normPhase_lt (d : Int) : normPhase d < Config.deg360 := by
  unfold normPhase Config.deg360
  omega

theorem normPhase_cast (d : Int) : (normPhase d : Int) = d % 23592960 := by
  unfold normPhase Config.deg360
  omega

theorem phaseToOff_lt (c : Config) (dn : Nat) : phaseToOff c dn < 2 ^ c.w :=
  Nat.mod_lt _ (by simp only [Config.phaseMod]; positivity)

/-! ## What the words written hold: the numbers, with nothing lost -/

theorem toNat_ofNat_of_lt {n : Nat} (h : n < 4294967296) : (BitVec.ofNat 32 n).toNat = n := by
  rw [BitVec.toNat_ofNat]
  exact Nat.mod_eq_of_lt h

theorem clampFreq_bounds {c : Config} (h : c.legal = true) (f : Nat) :
    c.fmin ≤ clampFreq c f ∧ clampFreq c f ≤ c.fmax := by
  obtain ⟨-, -, hn, -, -, -, hs, -, -, -⟩ := (legal_iff c).mp h
  exact clampNat_bounds (fmin_le_fmax hn hs)

/-- FREQ_REQ as `loadFreq` writes it (43_control.md R161). -/
theorem toNat_clampFreq {c : Config} (h : c.legal = true) (f : Nat) :
    (BitVec.ofNat 32 (clampFreq c f)).toNat = clampFreq c f := by
  have h1 := (clampFreq_bounds h f).2
  obtain ⟨-, -, -, -, -, -, -, hs, -, -⟩ := (legal_iff c).mp h
  exact toNat_ofNat_of_lt (by unfold Config.fmax at h1; omega)

/-- INC as `loadFreq` writes it (R161). -/
theorem toNat_freqToInc {c : Config} (h : c.legal = true) (f : Nat) :
    (BitVec.ofNat 32 (freqToInc c f)).toNat = freqToInc c f := by
  obtain ⟨hw, hw', -⟩ := (legal_iff c).mp h
  have h1 := (freqToInc_bounds hw f).2
  have h2 := phaseMod_le hw'
  exact toNat_ofNat_of_lt (by omega)

/-- PHASE_REQ as `loadPhase` writes it (R163). -/
theorem toNat_normPhase (d : Int) : (BitVec.ofNat 32 (normPhase d)).toNat = normPhase d := by
  have h1 := normPhase_lt d
  exact toNat_ofNat_of_lt (by unfold Config.deg360 at h1; omega)

/-- OFF as `loadPhase` writes it (R163). -/
theorem toNat_phaseToOff {c : Config} (h : c.legal = true) (dn : Nat) :
    (BitVec.ofNat 32 (phaseToOff c dn)).toNat = phaseToOff c dn := by
  obtain ⟨-, hw', -⟩ := (legal_iff c).mp h
  have h1 := phaseToOff_lt c dn
  have h2 := phaseMod_le hw'
  exact toNat_ofNat_of_lt (by omega)

end Sys2Proof.Machine
end

