-- ==== Sys2Proof/Laws/Decode.lean ====
section
/-! SUPPORT. The fields of a packed word, and the decoder case by case, so that no proof unfolds it. -/

namespace Sys2Proof

/-! ## Fields of a packed word -/

@[simp] theorem kindOf_packTW (k : BitVec 2) (a : Offset) (d : Word) : kindOf (packTW k a d) = k := by
  apply BitVec.eq_of_getLsbD_eq
  intro i hi
  simp only [kindOf, packTW, BitVec.getLsbD_extractLsb', BitVec.getLsbD_append]
  rw [if_neg (by omega), if_neg (by omega), if_neg (by omega)]
  rw [show 62 + i - 32 - 8 - 22 = i by omega]
  simp [hi]

@[simp] theorem rsvOf_packTW (k : BitVec 2) (a : Offset) (d : Word) : rsvOf (packTW k a d) = 0 := by
  apply BitVec.eq_of_getLsbD_eq
  intro i hi
  simp only [rsvOf, packTW, BitVec.getLsbD_extractLsb', BitVec.getLsbD_append]
  rw [if_neg (by omega), if_neg (by omega), if_pos (by omega)]
  simp

@[simp] theorem addrOf_packTW (k : BitVec 2) (a : Offset) (d : Word) : addrOf (packTW k a d) = a := by
  apply BitVec.eq_of_getLsbD_eq
  intro i hi
  simp only [addrOf, packTW, BitVec.getLsbD_extractLsb', BitVec.getLsbD_append]
  rw [if_neg (by omega), if_pos (by omega)]
  simp [hi]

@[simp] theorem dataOf_packTW (k : BitVec 2) (a : Offset) (d : Word) : dataOf (packTW k a d) = d := by
  apply BitVec.eq_of_getLsbD_eq
  intro i hi
  simp only [dataOf, packTW, BitVec.getLsbD_extractLsb', BitVec.getLsbD_append]
  rw [if_pos (by omega)]
  simp [hi]

/-- A word without reserved bits is its fields. -/
theorem packTW_fields {w : TW} (h : rsvOf w = 0) : packTW (kindOf w) (addrOf w) (dataOf w) = w := by
  apply BitVec.eq_of_getLsbD_eq
  intro i hi
  have hr : 40 ≤ i → i < 62 → w.getLsbD i = false := by
    intro h1 h2
    have := congrArg (fun r => r.getLsbD (i - 40)) h
    simp only [rsvOf, BitVec.getLsbD_extractLsb'] at this
    simpa [show i - 40 < 22 by omega, show 40 + (i - 40) = i by omega] using this
  simp only [kindOf, addrOf, dataOf, packTW, BitVec.getLsbD_extractLsb', BitVec.getLsbD_append]
  split_ifs with h1 h2 h3
  · simp [h1]
  · simp [h2, show 32 + (i - 32) = i by omega]
  · simp [hr (by omega) (by omega)]
  · simp [show i - 32 - 8 - 22 < 2 by omega, show 62 + (i - 32 - 8 - 22) = i by omega]

/-! ## The decoder, case by case (30_encoding.md R76) -/

theorem decode_of_rsv {w : TW} (h : rsvOf w ≠ 0) : decode w = .error .malformedRsv := by
  rw [decode, if_pos h]

theorem decode_of_malformed_event {w : TW} (h : rsvOf w = 0) (hk : kindOf w = kindTick ∨ kindOf w = kindReset)
    (hz : addrOf w ≠ 0 ∨ dataOf w ≠ 0) : decode w = .error .malformedEvent := by
  obtain hk | hk := hk
  · rw [decode, if_neg (by simp [h]), if_pos hk, if_pos hz]
  · rw [decode, if_neg (by simp [h]), if_neg (by simp [hk, kindReset, kindTick]), if_pos hk, if_pos hz]

theorem decode_of_malformed_read {w : TW} (h : rsvOf w = 0) (hk : kindOf w = kindRead) (hz : dataOf w ≠ 0) :
    decode w = .error .malformedRead := by
  rw [decode, if_neg (by simp [h]), if_neg (by simp [hk, kindRead, kindTick]),
    if_neg (by simp [hk, kindRead, kindReset]), if_pos hk, if_pos hz]

theorem decode_of_tick {w : TW} (h : rsvOf w = 0) (hk : kindOf w = kindTick) (ha : addrOf w = 0) (hd : dataOf w = 0) :
    decode w = .ok .tick := by
  rw [decode, if_neg (by simp [h]), if_pos hk, if_neg (by simp [ha, hd])]

theorem decode_of_reset {w : TW} (h : rsvOf w = 0) (hk : kindOf w = kindReset) (ha : addrOf w = 0) (hd : dataOf w = 0) :
    decode w = .ok .reset := by
  rw [decode, if_neg (by simp [h]), if_neg (by simp [hk, kindReset, kindTick]), if_pos hk, if_neg (by simp [ha, hd])]

theorem decode_of_read {w : TW} (h : rsvOf w = 0) (hk : kindOf w = kindRead) (hd : dataOf w = 0) :
    decode w = .ok (decodeRead (addrOf w)) := by
  rw [decode, if_neg (by simp [h]), if_neg (by simp [hk, kindRead, kindTick]),
    if_neg (by simp [hk, kindRead, kindReset]), if_pos hk, if_neg (by simp [hd])]

theorem decode_of_write {w : TW} (h : rsvOf w = 0) (hk : kindOf w = kindWrite) :
    decode w = .ok (decodeWrite (addrOf w) (dataOf w)) := by
  rw [decode, if_neg (by simp [h]), if_neg (by simp [hk, kindWrite, kindTick]),
    if_neg (by simp [hk, kindWrite, kindReset]), if_neg (by simp [hk, kindWrite, kindRead])]

/-- The four kinds are all there are. -/
theorem kind_cases (k : BitVec 2) : k = kindRead ∨ k = kindWrite ∨ k = kindTick ∨ k = kindReset := by
  revert k
  decide

/-! ## The operand sets of the fall-back rows -/

theorem isReadable_iff (a : Offset) : isReadable a = true ↔
    a = 0x04 ∨ a = 0x08 ∨ a = 0x0C ∨ a = 0x10 ∨ a = 0x14 ∨ a = 0x18 ∨ a = 0x1C ∨ a = 0x20 ∨ a = 0x24 ∨ a = 0x28 := by
  simp [isReadable, or_assoc]

theorem isWritable_iff (a : Offset) : isWritable a = true ↔ a = 0x00 ∨ a = 0x04 ∨ a = 0x08 ∨ a = 0x0C := by
  simp [isWritable, or_assoc]

theorem isCommandCode_iff (d : Word) : isCommandCode d = true ↔ d = 1 ∨ d = 2 ∨ d = 3 ∨ d = 4 := by
  simp [isCommandCode, or_assoc]

theorem decodeRead_of_illegal {a : Offset} (h : isReadable a = false) : decodeRead a = .rdIllegal a := by
  unfold decodeRead
  split_ifs <;> simp_all [isReadable]

theorem decodeWrite_of_illegal {a : Offset} {d : Word} (h : isWritable a = false) : decodeWrite a d = .wrIllegal a d := by
  unfold decodeWrite
  split_ifs <;> simp_all [isWritable]

theorem decodeCommand_of_reserved {d : Word} (h : isCommandCode d = false) : decodeCommand d = .cmdRsvd d := by
  unfold decodeCommand
  split_ifs <;> simp_all [isCommandCode]

/-- Everything a word that decodes can be. -/
theorem decode_ok_cases {w : TW} {i : Instr} (h : decode w = .ok i) :
    rsvOf w = 0 ∧
      ((kindOf w = kindTick ∧ addrOf w = 0 ∧ dataOf w = 0 ∧ i = .tick) ∨
        (kindOf w = kindReset ∧ addrOf w = 0 ∧ dataOf w = 0 ∧ i = .reset) ∨
        (kindOf w = kindRead ∧ dataOf w = 0 ∧ i = decodeRead (addrOf w)) ∨
        (kindOf w = kindWrite ∧ i = decodeWrite (addrOf w) (dataOf w))) := by
  by_cases hr : rsvOf w = 0
  · refine ⟨hr, ?_⟩
    obtain hk | hk | hk | hk := kind_cases (kindOf w)
    · by_cases hd : dataOf w = 0
      · rw [decode_of_read hr hk hd, Except.ok.injEq] at h
        exact .inr (.inr (.inl ⟨hk, hd, h.symm⟩))
      · simp [decode_of_malformed_read hr hk hd] at h
    · rw [decode_of_write hr hk, Except.ok.injEq] at h
      exact .inr (.inr (.inr ⟨hk, h.symm⟩))
    · by_cases hz : addrOf w = 0 ∧ dataOf w = 0
      · rw [decode_of_tick hr hk hz.1 hz.2, Except.ok.injEq] at h
        exact .inl ⟨hk, hz.1, hz.2, h.symm⟩
      · simp [decode_of_malformed_event hr (.inl hk) (by tauto)] at h
    · by_cases hz : addrOf w = 0 ∧ dataOf w = 0
      · rw [decode_of_reset hr hk hz.1 hz.2, Except.ok.injEq] at h
        exact .inr (.inl ⟨hk, hz.1, hz.2, h.symm⟩)
      · simp [decode_of_malformed_event hr (.inr hk) (by tauto)] at h
  · simp [decode_of_rsv hr] at h

end Sys2Proof
end

