-- ==== Sys2Proof/Laws/Ops.lean ====
section
/-! SUPPORT. What each shared operation can do, said once: the lifecycle gate, raising, the tick's body, fetching and the
step, and runs. -/

namespace Sys2Proof.Machine

/-! ## Raising and the lifecycle gate -/

theorem raise_notInit_eq (s : State) :
    raise .notInit s = { s with eNotInit := true, trace := s.trace ++ [.response .err 0] } := rfl

theorem raise_state_eq (s : State) :
    raise .state s = { s with eState := true, trace := s.trace ++ [.response .err 0] } := rfl

theorem raise_cmd_eq (s : State) :
    raise .cmd s = { s with eCmd := true, trace := s.trace ++ [.response .err 0] } := rfl

theorem raise_addr_eq (s : State) :
    raise .addr s = { s with eAddr := true, trace := s.trace ++ [.response .err 0] } := rfl

@[simp] theorem ifInitialised_of_uninit {s : State} (t : State) (h : s.life = .uninit) :
    ifInitialised s t = raise .notInit s := by
  simp [ifInitialised, h]

@[simp] theorem ifInitialised_of_ne_uninit {s : State} (t : State) (h : s.life ≠ .uninit) : ifInitialised s t = t := by
  cases hl : s.life <;> simp_all [ifInitialised]

/-- The gate: either the error, in UNINIT, or the operation. -/
theorem ifInitialised_cases (s t : State) :
    (s.life = .uninit ∧ ifInitialised s t = raise .notInit s) ∨ (s.life ≠ .uninit ∧ ifInitialised s t = t) := by
  by_cases h : s.life = .uninit
  · exact .inl ⟨h, ifInitialised_of_uninit t h⟩
  · exact .inr ⟨h, ifInitialised_of_ne_uninit t h⟩

/-! ## The tick -/

/-- A producing TICK that answers a next state had both samples, and that is all it did. -/
theorem produceSamples_next {s t : State} (h : produceSamples s = .next t) :
    ∃ va vb, sample s.cfg s.acc = some va ∧ sample s.cfg (phaseAdd s.cfg s.acc s.off) = some vb ∧
      t = advance (emitSamples va vb s) := by
  unfold produceSamples at h
  split at h
  · rename_i va vb ha hb
    exact ⟨va, vb, ha, hb, by simpa using h.symm⟩
  · cases h

theorem produceSamples_of_samples {s : State} {va vb : Sample} (ha : sample s.cfg s.acc = some va)
    (hb : sample s.cfg (phaseAdd s.cfg s.acc s.off) = some vb) :
    produceSamples s = .next (advance (emitSamples va vb s)) := by
  simp [produceSamples, ha, hb]

/-- A TICK either leaves the state as it is, outside RUNNING, or produces samples. -/
theorem execTick_next {s t : State} (h : execTick s = .next t) :
    (s.life ≠ .running ∧ t = s) ∨ (s.life = .running ∧ ∃ va vb, sample s.cfg s.acc = some va ∧
      sample s.cfg (phaseAdd s.cfg s.acc s.off) = some vb ∧ t = advance (emitSamples va vb s)) := by
  unfold execTick at h
  split at h
  · exact .inl ⟨by simp_all, by simpa using h.symm⟩
  · exact .inl ⟨by simp_all, by simpa using h.symm⟩
  · exact .inr ⟨‹_›, produceSamples_next h⟩

/-! ## Fetching and the step -/

theorem fetch_of_illegal {s : State} (h : s.cfg.legal = false) : fetch s = .refuse .illegalConfiguration := by
  simp [fetch, h]

theorem fetch_of_nil {s : State} (h : s.cfg.legal = true) (he : s.events = []) : fetch s = .idle := by
  simp [fetch, h, he]

theorem fetch_of_cons {s : State} {w : TW} {rest : List TW} (h : s.cfg.legal = true) (he : s.events = w :: rest) :
    fetch s = takeWord w { s with events := rest } := by
  simp [fetch, h, he]

/-- Everything a step that answers a next state can have done. -/
theorem step_next {s t : State} (h : step s = .next t) :
    s.cfg.legal = true ∧ ((s.events = [] ∧ t = s) ∨
      ∃ w rest i, s.events = w :: rest ∧ decode w = .ok i ∧ exec i { s with events := rest } = .next t) := by
  cases hl : s.cfg.legal with
  | false => simp [step, fetch_of_illegal hl] at h
  | true =>
    refine ⟨rfl, ?_⟩
    cases he : s.events with
    | nil => exact .inl ⟨rfl, by simpa [step, fetch_of_nil hl he] using h.symm⟩
    | cons w rest =>
      rw [step, fetch_of_cons hl he, takeWord] at h
      cases hd : decode w with
      | ok i => exact .inr ⟨w, rest, i, rfl, hd, by simpa [hd] using h⟩
      | error e => simp [hd] at h

/-! ## Runs -/

@[simp] theorem execAll_nil (s : State) : execAll [] s = .next s := rfl

theorem execAll_cons_of_next {i : Instr} {is : List Instr} {s t : State} (h : exec i s = .next t) :
    execAll (i :: is) s = execAll is t := by
  simp [execAll, h]

theorem execAll_cons_next {i : Instr} {is : List Instr} {s u : State} (h : execAll (i :: is) s = .next u) :
    ∃ t, exec i s = .next t ∧ execAll is t = .next u := by
  unfold execAll at h
  split at h
  · exact ⟨_, ‹_›, h⟩
  · cases h
  · cases h

theorem execAll_append_of_next {is js : List Instr} {s t : State} (h : execAll is s = .next t) :
    execAll (is ++ js) s = execAll js t := by
  induction is generalizing s with
  | nil => simp_all
  | cons i is ih =>
    obtain ⟨u, hu, hr⟩ := execAll_cons_next h
    rw [List.cons_append, execAll_cons_of_next hu, ih hr]

@[simp] theorem ticks_zero (s : State) : ticks 0 s = .next s := rfl

theorem ticks_succ_of_next {n : Nat} {s t : State} (h : exec .tick s = .next t) : ticks (n + 1) s = ticks n t := by
  simp [ticks, List.replicate_succ, execAll_cons_of_next h]

/-! ## What the sink has received -/

@[simp] theorem sinkWrites_append (xs ys : List Observation) : sinkWrites (xs ++ ys) = sinkWrites xs ++ sinkWrites ys := by
  induction xs with
  | nil => rfl
  | cons o os ih => cases o <;> simp [sinkWrites, ih]

@[simp] theorem sinkWrites_response (r : Resp) (d : Word) : sinkWrites [.response r d] = [] := rfl

@[simp] theorem sinkWrites_pair (va vb : Sample) :
    sinkWrites [.sinkWrite .chA va, .sinkWrite .chB vb] = [(.chA, va), (.chB, vb)] := rfl

end Sys2Proof.Machine
end

