-- ==== Sys2Proof/Laws/PerInstr.lean ====
section
/-! SUPPORT. One lemma for each constructor of `Instr`: the word the encoder makes lies in the instruction's own row of
spec/opcode_table.json. -/

namespace Sys2Proof.Laws.EncodedInRow

/-- The encoding of `i` matches the opcode row that bears its mnemonic (30_encoding.md R76, R81). -/
def Statement (i : Instr) : Prop := ∃ r ∈ opcodeTable, r.mnemonic = mnemonicOf i ∧ rowMatches r (encode i) = true

/-- A mask of KIND, RSV and ADDR forgets DATA. -/
theorem mask_data (k : BitVec 2) (a : Offset) (d : Word) :
    packTW k a d &&& (BitVec.allOnes 32 ++ 0#32) = packTW k a 0 := by
  rw [packTW, BitVec.and_append (x₁ := k ++ 0#22 ++ a), BitVec.and_allOnes, BitVec.and_zero]
  rfl

/-- A mask of KIND, RSV and DATA forgets ADDR. -/
theorem mask_addr (k : BitVec 2) (a : Offset) (d : Word) :
    packTW k a d &&& (BitVec.allOnes 24 ++ 0#8 ++ BitVec.allOnes 32) = packTW k 0 d := by
  rw [packTW, BitVec.and_append (x₁ := k ++ 0#22 ++ a), BitVec.and_append (x₁ := k ++ 0#22), BitVec.and_allOnes,
    BitVec.and_allOnes, BitVec.and_zero]
  rfl

/-- A mask of KIND and RSV forgets ADDR and DATA. -/
theorem mask_addr_data (k : BitVec 2) (a : Offset) (d : Word) :
    packTW k a d &&& (BitVec.allOnes 24 ++ 0#8 ++ 0#32) = packTW k 0 0 := by
  rw [packTW, BitVec.and_append (x₁ := k ++ 0#22 ++ a), BitVec.and_append (x₁ := k ++ 0#22), BitVec.and_allOnes,
    BitVec.and_zero, BitVec.and_zero]
  rfl

/-- A row whose mask leaves out DATA. -/
theorem matches_of_data {r : OpcodeRow} {k : BitVec 2} {a : Offset} (d : Word)
    (hm : r.mask = BitVec.allOnes 32 ++ 0#32) (hb : r.bits = packTW k a 0) : rowMatches r (packTW k a d) = true := by
  rw [rowMatches, hm, hb, mask_data, beq_iff_eq]

theorem tick : Statement .tick := by
  exact ⟨⟨"TICK", 0x8000000000000000, 0xFFFFFFFFFFFFFFFF⟩, by decide, rfl, by decide⟩

theorem reset : Statement .reset := by
  exact ⟨⟨"RESET", 0xC000000000000000, 0xFFFFFFFFFFFFFFFF⟩, by decide, rfl, by decide⟩

theorem cmdInit : Statement .cmdInit := by
  exact ⟨⟨"CMD_INIT", 0x4000000000000001, 0xFFFFFFFFFFFFFFFF⟩, by decide, rfl, by decide⟩

theorem cmdDeinit : Statement .cmdDeinit := by
  exact ⟨⟨"CMD_DEINIT", 0x4000000000000002, 0xFFFFFFFFFFFFFFFF⟩, by decide, rfl, by decide⟩

theorem cmdStart : Statement .cmdStart := by
  exact ⟨⟨"CMD_START", 0x4000000000000003, 0xFFFFFFFFFFFFFFFF⟩, by decide, rfl, by decide⟩

theorem cmdStop : Statement .cmdStop := by
  exact ⟨⟨"CMD_STOP", 0x4000000000000004, 0xFFFFFFFFFFFFFFFF⟩, by decide, rfl, by decide⟩

theorem cmdRsvd (code : Word) : Statement (.cmdRsvd code) := by
  refine ⟨⟨"CMD_RSVD", 0x4000000000000000, 0xFFFFFFFF00000000⟩, by decide, rfl, ?_⟩
  exact matches_of_data _ (by decide) (by decide)

theorem wrStatus (data : Word) : Statement (.wrStatus data) := by
  refine ⟨⟨"WR_STATUS", 0x4000000400000000, 0xFFFFFFFF00000000⟩, by decide, rfl, ?_⟩
  exact matches_of_data _ (by decide) (by decide)

theorem wrFreq (data : Word) : Statement (.wrFreq data) := by
  refine ⟨⟨"WR_FREQ", 0x4000000800000000, 0xFFFFFFFF00000000⟩, by decide, rfl, ?_⟩
  exact matches_of_data _ (by decide) (by decide)

theorem wrPhase (data : Word) : Statement (.wrPhase data) := by
  refine ⟨⟨"WR_PHASE", 0x4000000C00000000, 0xFFFFFFFF00000000⟩, by decide, rfl, ?_⟩
  exact matches_of_data _ (by decide) (by decide)

theorem wrIllegal (addr : Offset) (data : Word) : Statement (.wrIllegal addr data) := by
  refine ⟨⟨"WR_ILLEGAL", 0x4000000000000000, 0xFFFFFF0000000000⟩, by decide, rfl, ?_⟩
  rw [rowMatches, beq_iff_eq]
  exact mask_addr_data _ _ _

theorem rdStatus : Statement .rdStatus := by
  exact ⟨⟨"RD_STATUS", 0x0000000400000000, 0xFFFFFFFFFFFFFFFF⟩, by decide, rfl, by decide⟩

theorem rdFreq : Statement .rdFreq := by
  exact ⟨⟨"RD_FREQ", 0x0000000800000000, 0xFFFFFFFFFFFFFFFF⟩, by decide, rfl, by decide⟩

theorem rdPhase : Statement .rdPhase := by
  exact ⟨⟨"RD_PHASE", 0x0000000C00000000, 0xFFFFFFFFFFFFFFFF⟩, by decide, rfl, by decide⟩

theorem rdInc : Statement .rdInc := by
  exact ⟨⟨"RD_INC", 0x0000001000000000, 0xFFFFFFFFFFFFFFFF⟩, by decide, rfl, by decide⟩

theorem rdOffset : Statement .rdOffset := by
  exact ⟨⟨"RD_OFFSET", 0x0000001400000000, 0xFFFFFFFFFFFFFFFF⟩, by decide, rfl, by decide⟩

theorem rdAcc : Statement .rdAcc := by
  exact ⟨⟨"RD_ACC", 0x0000001800000000, 0xFFFFFFFFFFFFFFFF⟩, by decide, rfl, by decide⟩

theorem rdFreqAch : Statement .rdFreqAch := by
  exact ⟨⟨"RD_FREQ_ACH", 0x0000001C00000000, 0xFFFFFFFFFFFFFFFF⟩, by decide, rfl, by decide⟩

theorem rdConfig : Statement .rdConfig := by
  exact ⟨⟨"RD_CONFIG", 0x0000002000000000, 0xFFFFFFFFFFFFFFFF⟩, by decide, rfl, by decide⟩

theorem rdTableSize : Statement .rdTableSize := by
  exact ⟨⟨"RD_TABLE_SIZE", 0x0000002400000000, 0xFFFFFFFFFFFFFFFF⟩, by decide, rfl, by decide⟩

theorem rdSampleRate : Statement .rdSampleRate := by
  exact ⟨⟨"RD_SAMPLE_RATE", 0x0000002800000000, 0xFFFFFFFFFFFFFFFF⟩, by decide, rfl, by decide⟩

theorem rdIllegal (addr : Offset) : Statement (.rdIllegal addr) := by
  refine ⟨⟨"RD_ILLEGAL", 0x0000000000000000, 0xFFFFFF00FFFFFFFF⟩, by decide, rfl, ?_⟩
  rw [rowMatches, beq_iff_eq]
  exact mask_addr _ _ _

end Sys2Proof.Laws.EncodedInRow
end

