-- ==== Sys2Proof/Tests/Slice0.lean ====
section
/-! SUPPORT. Tests. Expected values come from spec/95_test_vectors.md (the vector's name stands beside each), from the
listing of 40_table_and_angle.md R102, and from the rows of spec/opcode_table.json; each `test_witness_…` shows states and
operands that meet all the hypotheses of the obligation it names, clause by clause. -/

namespace Sys2Proof.Tests

open Sys2Proof Sys2Proof.Machine

/-! ## Small states -/

/-- CFG-S of spec/95_test_vectors.md. -/
def cfgS : Config where
  w := 8
  n := 4
  a := 8
  sr := 1000
  interp := true
  table := [128, 255, 128, 0]
  initFreq := 64000
  initPhase := 0

/-- CFG-3, a table size that is no power of two. -/
def cfg3 : Config := { cfgS with n := 3, table := [0, 90, 240] }

/-- CFG-W32, the wide end of W. -/
def cfgW32 : Config where
  w := 32
  n := 2
  a := 1
  sr := 1
  interp := true
  table := [0, 1]
  initFreq := 64
  initPhase := 0

/-- CFG-W1, the narrow end of W. -/
def cfgW1 : Config := { cfgW32 with w := 1 }

/-- CFG-S after power-on. -/
def fresh : State := State.resetOf cfgS

/-- CFG-S after INIT (program P2, line 2), in the given LIFE. -/
def loaded (l : Life) : State := { fresh with life := l, inc := 64, freqReq := 64000 }

/-- REF after INIT (the start state of V-CT-1 to V-CT-12), in the given LIFE. -/
def loadedRef (l : Life) : State := { State.reset with life := l, inc := 13107, freqReq := 10240000 }

/-- The last thing an outcome shows. -/
def lastShown (o : Result) : Option Observation := (nextOf o).bind (fun t => t.trace.getLast?)

/-! ## WellFormed refuses ill-formed terms -/

theorem test_ill_formed_reserved_codes :
    ([1, 2, 3, 4].map (fun c : Word => (Instr.cmdRsvd c).wellFormed)) = [false, false, false, false] := by decide

theorem test_ill_formed_illegal_writes :
    ([0x00, 0x04, 0x08, 0x0C].map (fun a : Offset => (Instr.wrIllegal a 5).wellFormed)) = [false, false, false, false] := by
  decide

theorem test_ill_formed_illegal_reads :
    ([0x04, 0x08, 0x0C, 0x10, 0x14, 0x18, 0x1C, 0x20, 0x24, 0x28].all
      (fun a : Offset => !(Instr.rdIllegal a).wellFormed)) = true := by decide

theorem test_well_formed_neighbours :
    (Instr.cmdRsvd 0).wellFormed = true ∧ (Instr.cmdRsvd 5).wellFormed = true ∧
      (Instr.wrIllegal 0x10 0).wellFormed = true ∧ (Instr.wrIllegal 0x01 0).wellFormed = true ∧
      (Instr.rdIllegal 0x00).wellFormed = true ∧ (Instr.rdIllegal 0x2C).wellFormed = true := by decide

/-! ## Configurations (R7, R8, R9) -/

theorem test_legal_configurations :
    Config.ref.legal = true ∧ cfgS.legal = true ∧ cfg3.legal = true ∧ cfgW32.legal = true ∧ cfgW1.legal = true := by decide

theorem test_illegal_widths :
    { cfgS with w := 0 }.legal = false ∧ { cfgS with w := 33 }.legal = false ∧ { cfgS with a := 0 }.legal = false ∧
      { cfgS with a := 17 }.legal = false := by decide

theorem test_illegal_table_sizes :
    { cfgS with n := 1, table := [0] }.legal = false ∧ { cfgS with n := 65537 }.legal = false ∧
      { cfgS with n := 5 }.legal = false ∧ { cfgS with n := 3 }.legal = false := by decide

theorem test_illegal_rates_and_entries :
    { cfgS with sr := 0 }.legal = false ∧ { cfgS with sr := 16777216 }.legal = false ∧
      { cfgS with table := [128, 256, 128, 0] }.legal = false := by decide

theorem test_derived_constants :
    Config.ref.fmin = 100000 ∧ Config.ref.fmax = 25600000 ∧ cfg3.fmin = 42667 ∧ cfgS.fmin = 32000 ∧ cfgS.fmax = 128000 := by
  decide

/-! ## The reference table (R102) -/

theorem test_ref_table_entries :
    ([1, 16, 42, 51, 67, 102, 128, 192, 240, 255].map (fun i => Config.refTable[i]?)) =
      [some 131, some 177, some 237, some 249, some 255, some 204, some 128, some 1, some 79, some 125] := by decide

/-- R102: the two halves are mirror images about 128: entries i and i + 128 add to 256. -/
theorem test_ref_table_symmetry :
    ((Config.refTableLow.zip Config.refTableHigh).map (fun p => p.1 + p.2)) = List.replicate 128 256 := by decide

/-! ## Decoding: one word written out for each row of the opcode table -/

theorem test_decode_tick : decode 0b1000000000000000000000000000000000000000000000000000000000000000 = .ok .tick := by decide
theorem test_decode_reset : decode 0b1100000000000000000000000000000000000000000000000000000000000000 = .ok .reset := by
  decide
theorem test_decode_cmdInit : decode 0x4000000000000001 = .ok .cmdInit := by decide
theorem test_decode_cmdDeinit : decode 0x4000000000000002 = .ok .cmdDeinit := by decide
theorem test_decode_cmdStart : decode 0x4000000000000003 = .ok .cmdStart := by decide
theorem test_decode_cmdStop : decode 0x4000000000000004 = .ok .cmdStop := by decide
theorem test_decode_cmdRsvd :
    decode 0x4000000000000005 = .ok (.cmdRsvd 5) ∧ decode 0x4000000080000001 = .ok (.cmdRsvd 0x80000001) ∧
      decode 0x4000000000000000 = .ok (.cmdRsvd 0) := by decide
theorem test_decode_wrStatus : decode 0x4000000400000F00 = .ok (.wrStatus 0xF00) := by decide
theorem test_decode_wrFreq : decode 0x40000008FFFFFFFF = .ok (.wrFreq 0xFFFFFFFF) := by decide
theorem test_decode_wrPhase :
    decode 0b0100000000000000000000000000110011111111101001100000000000000000 = .ok (.wrPhase 0xFFA60000) := by decide
theorem test_decode_wrIllegal :
    decode 0x400000FF00000000 = .ok (.wrIllegal 0xFF 0) ∧ decode 0x4000001800000000 = .ok (.wrIllegal 0x18 0) ∧
      decode 0x4000000900000005 = .ok (.wrIllegal 0x09 5) := by decide
theorem test_decode_rdStatus : decode 0x0000000400000000 = .ok .rdStatus := by decide
theorem test_decode_rdFreq : decode 0x0000000800000000 = .ok .rdFreq := by decide
theorem test_decode_rdPhase : decode 0x0000000C00000000 = .ok .rdPhase := by decide
theorem test_decode_rdInc : decode 0x0000001000000000 = .ok .rdInc := by decide
theorem test_decode_rdOffset : decode 0x0000001400000000 = .ok .rdOffset := by decide
theorem test_decode_rdAcc : decode 0x0000001800000000 = .ok .rdAcc := by decide
theorem test_decode_rdFreqAch : decode 0x0000001C00000000 = .ok .rdFreqAch := by decide
theorem test_decode_rdConfig : decode 0x0000002000000000 = .ok .rdConfig := by decide
theorem test_decode_rdTableSize : decode 0x0000002400000000 = .ok .rdTableSize := by decide
theorem test_decode_rdSampleRate : decode 0x0000002800000000 = .ok .rdSampleRate := by decide
theorem test_decode_rdIllegal :
    decode 0x0000000100000000 = .ok (.rdIllegal 0x01) ∧ decode 0x0000000000000000 = .ok (.rdIllegal 0x00) ∧
      decode 0x0000002C00000000 = .ok (.rdIllegal 0x2C) := by decide

/-- V-DE-3 to V-DE-7. -/
theorem test_decode_refusals :
    decode 0x8000000000000001 = .error .malformedEvent ∧ decode 0xC000000100000000 = .error .malformedEvent ∧
      decode 0x0000000400000001 = .error .malformedRead ∧ decode 0x4000010000000000 = .error .malformedRsv ∧
      decode 0x0800000000000000 = .error .malformedRsv := by decide

/-! ## Vectors -/

/-- V-AN-2, V-AN-3: floors toward minus infinity, and the wrap of the last entry to entry 0. -/
theorem test_sample_ref :
    ([128, 255, 29491, 40000, 52428, 65535, 17153, 15615].map (fun p : Word => sample Config.ref p)) =
      [some 129, some 130, some 167, some 46, some 6, some 127, some 254, some 254] := by decide

/-- V-AN-5: a table size that is no power of two. -/
theorem test_sample_cfg3 :
    ([0, 85, 86, 100, 170, 171, 255].map (fun p : Word => sample cfg3 p)) =
      [some 0, some 89, some 91, some 115, some 238, some 239, some 2] := by decide

/-- V-AN-7: the ends of W. -/
theorem test_sample_width_ends :
    ([0x80000000, 0xFFFFFFFF, 0x40000000].map (fun p : Word => sample cfgW32 p)) = [some 1, some 0, some 0] ∧
      ([0, 1].map (fun p : Word => sample cfgW1 p)) = [some 0, some 1] := by decide

/-- V-TK-5: both phases wrap. -/
theorem test_tick_wraps :
    (nextOf (execTick { loadedRef .running with acc := 60000, off := 16384 })).map
      (fun t => (t.acc, t.outA, t.outB, t.trace)) =
      some (7571, 63, 237, [.sinkWrite .chA 63, .sinkWrite .chB 237]) := by decide

/-- V-TK-7, V-TK-8 on CFG-S: no effect. -/
theorem test_tick_outside_running :
    nextOf (execTick { loaded .stopped with acc := 192 }) = some { loaded .stopped with acc := 192 } ∧
      nextOf (execTick fresh) = some fresh := by decide

/-- V-LC-12. -/
theorem test_reset :
    nextOf (execReset { loaded .running with acc := 192, eCmd := true, outA := 5, outB := 6 }) = some fresh := by decide

/-- V-LC-13: INIT normalises INIT_PHASE like a write. -/
theorem test_init_normalises :
    (nextOf (execCmdInit (State.resetOf { Config.ref with initPhase := 0xFFA60000 }))).map
      (fun t => (t.life, t.phaseReq, t.off, t.inc)) = some (.stopped, 0x10E0000, 49152, 13107) := by decide

/-- V-LC-3. -/
theorem test_init_when_running :
    (nextOf (execCmdInit { loaded .running with acc := 192 })).map (fun t => (t.life, t.acc, t.eState, t.trace)) =
      some (.running, 192, true, [.response .err 0]) := by decide

/-- V-LC-5: DEINIT keeps the error bits and the outputs. -/
theorem test_deinit :
    nextOf (execCmdDeinit { loaded .running with acc := 192, eAddr := true, outA := 9 }) =
      some { fresh with eAddr := true, outA := 9, trace := [.response .ok 0] } := by decide

/-- V-LC-6, V-LC-7. -/
theorem test_start :
    nextOf (execCmdStart fresh) = some { fresh with eNotInit := true, trace := [.response .err 0] } ∧
      nextOf (execCmdStart { loaded .stopped with acc := 192 }) =
        some { loaded .running with acc := 192, trace := [.response .ok 0] } := by decide

/-- V-LC-9, V-LC-10. -/
theorem test_stop :
    nextOf (execCmdStop fresh) = some { fresh with eNotInit := true, trace := [.response .err 0] } ∧
      nextOf (execCmdStop { loaded .running with acc := 192, outA := 3 }) =
        some { loaded .stopped with acc := 192, outA := 3, trace := [.response .ok 0] } := by decide

/-- V-ER-11: E_CMD precedes the lifecycle check. -/
theorem test_reserved_command :
    nextOf (execCmdRsvd 7 fresh) = some { fresh with eCmd := true, trace := [.response .err 0] } := by decide

/-- V-CT-14. -/
theorem test_wr_status_clears_one_bit :
    nextOf (execWrStatus 0x400 { fresh with eCmd := true, eAddr := true }) =
      some { fresh with eAddr := true, trace := [.response .ok 0] } := by decide

/-- V-CT-13, V-CT-15. -/
theorem test_wr_status_other_bits :
    nextOf (execWrStatus 3 { fresh with eCmd := true }) = some { fresh with eCmd := true, trace := [.response .ok 0] } ∧
      nextOf (execWrStatus 0xFFFFFFFF { loaded .running with eNotInit := true, eState := true, eCmd := true, eAddr := true }) =
        some { loaded .running with trace := [.response .ok 0] } := by decide

/-- V-CV-1, V-CV-11, V-CV-13. -/
theorem test_wr_freq_ref :
    ([0, 0xFFFFFFFF, 256000].map (fun d : Word => (nextOf (execWrFreq d (loadedRef .stopped))).map
      (fun t => (t.freqReq, t.inc)))) = [some (100000, 128), some (25600000, 32768), some (256000, 328)] := by decide

/-- V-CV-6 to V-CV-8: the tie rounds up. -/
theorem test_wr_freq_tie :
    ([32499, 32500, 32501].map (fun d : Word => (nextOf (execWrFreq d (loaded .running))).map (fun t => t.inc))) =
      [some 32, some 33, some 33] := by decide

/-- V-PH-2, V-PH-13, V-PH-9. -/
theorem test_wr_phase_signs :
    ([0xFFA60000, 0x80000000, 0x0167FFFF].map (fun d : Word => (nextOf (execWrPhase d (loadedRef .stopped))).map
      (fun t => (t.phaseReq, t.off)))) =
      [some (0x10E0000, 49152), some (0x1600000, 64080), some (0x167FFFF, 0)] := by decide

/-- V-PH-3, V-PH-11, V-PH-12: ties, and a tie that rounds up to a whole turn. -/
theorem test_wr_phase_ties :
    ([180, 179, 0x0167FF4C, 0x0167FF4B].map (fun d : Word => (nextOf (execWrPhase d (loadedRef .stopped))).map
      (fun t => t.off))) = [some 1, some 0, some 0, some 65535] := by decide

/-- V-ER-6, V-ER-8: E_ADDR precedes E_NOTINIT, and nothing is written. -/
theorem test_wr_illegal :
    nextOf (execWrIllegal 0x10 1 fresh) = some { fresh with eAddr := true, trace := [.response .err 0] } ∧
      nextOf (execWrIllegal 0x09 5 (loaded .stopped)) =
        some { loaded .stopped with eAddr := true, trace := [.response .err 0] } := by decide

/-- V-CT-7, and P3 line 9. -/
theorem test_rd_status :
    lastShown (execRdStatus (loadedRef .stopped)) = some (.response .ok 0x00000001) ∧
      lastShown (execRdStatus { loaded .stopped with eNotInit := true, eState := true, eCmd := true, eAddr := true }) =
        some (.response .ok 0x00000F01) ∧
      lastShown (execRdStatus (loaded .running)) = some (.response .ok 0x00000003) := by decide

/-- V-CT-1, V-CT-2, V-CT-3, V-CT-4, V-CT-5, with distinct values in the five registers. -/
theorem test_rd_engine :
    lastShown (execRdFreq (loadedRef .stopped)) = some (.response .ok 0x009C4000) ∧
      lastShown (execRdPhase { loadedRef .stopped with phaseReq := 0x10E0000 }) = some (.response .ok 0x10E0000) ∧
      lastShown (execRdInc (loadedRef .stopped)) = some (.response .ok 0x3333) ∧
      lastShown (execRdOffset { loadedRef .stopped with off := 49152 }) = some (.response .ok 49152) ∧
      lastShown (execRdAcc { loadedRef .stopped with acc := 52428 }) = some (.response .ok 52428) := by decide

/-- V-ER-1, V-ER-3. -/
theorem test_rd_engine_uninit :
    nextOf (execRdFreq fresh) = some { fresh with eNotInit := true, trace := [.response .err 0] } ∧
      nextOf (execRdAcc fresh) = some { fresh with eNotInit := true, trace := [.response .err 0] } := by decide

/-- V-CT-6: not the ≈ 39998.8 Hz of the source's scenario (90_conflicts.md C1). -/
theorem test_rd_freq_ach : lastShown (execRdFreqAch (loadedRef .stopped)) = some (.response .ok 0x009C3F64) := by decide

/-- V-CT-8 to V-CT-10, V-ER-5. -/
theorem test_rd_constants :
    lastShown (execRdConfig State.reset) = some (.response .ok 0x00010810) ∧
      lastShown (execRdTableSize State.reset) = some (.response .ok 0x100) ∧
      lastShown (execRdSampleRate State.reset) = some (.response .ok 0x00030D40) := by decide

/-- V-ER-7, V-ER-9, V-ER-10. -/
theorem test_rd_illegal :
    ([0x00, 0x2C, 0xFF].map (fun a : Offset => nextOf (execRdIllegal a fresh))) =
      List.replicate 3 (some { fresh with eAddr := true, trace := [.response .err 0] }) := by decide

/-! ## The step and the host's two functions -/

theorem test_step_takes_the_head :
    nextOf (step { fresh with events := [0x4000000000000002, 0x8000000000000000] }) =
      some { fresh with events := [0x8000000000000000], trace := [.response .ok 0] } := by decide

theorem test_step_refuses :
    refusalIn (step { fresh with events := [0x8000000000000001] }) = some .malformedEvent ∧
      refusalIn (step { fresh with cfg := { cfgS with w := 0 } }) = some .illegalConfiguration ∧
      nextOf (step fresh) = some fresh := by decide

theorem test_table_word :
    decodeTableWord 64 0x4000000C005A0000 = some (.wrPhase 0x5A0000) ∧ decodeTableWord 64 0x4000010000000000 = none := by
  decide

theorem test_with_fetch_word :
    (nextOf (step (State.reset.withFetchWord 64 0x4000000000000003))).map (fun t => (t.eNotInit, t.trace, t.events)) =
      some (true, [.response .err 0], []) := by decide

/-! ## The assembler (R82, R83) -/

theorem test_assemble_text :
    assembleText "wr phase, 0x005A_0000 ; 90 degrees\n\nRD @0x2C\nWR FREQ, -1\nSETFREQ 390.625\nTICKS 2".toList =
      some [0x4000000C005A0000, 0x0000002C00000000, 0x40000008FFFFFFFF, 0x40000008000186A0, 0x8000000000000000,
        0x8000000000000000] := by decide

theorem test_assemble_refusals :
    assembleText "SETFREQ 0.001".toList = none ∧ assembleText "WR FREQ, 4294967296".toList = none ∧
      assembleText "RD @256".toList = none ∧ assembleText "HALT".toList = none := by decide

/-- The separator `_`: R10's in a `0x` literal; the two refusals are the choices of log 15, not the spec's. -/
theorem test_assemble_separators :
    assembleText "WR FREQ, 0x009C_4000".toList = some [0x40000008009C4000] ∧
      assembleText "WR FREQ, 1_000".toList = none ∧ assembleText "WR FREQ, 0x_".toList = none := by decide

/-! ## Witnesses: concrete data that meet the hypotheses of each obligation -/

/-- A legal state with the given words to come. -/
def coming (ws : List TW) : State := { loaded .running with events := ws }

theorem test_witness_StepRunsTheDecodedHeadOfTheStream :
    (∃ w rest i, (coming [0x8000000000000000]).cfg.legal = true ∧ (coming [0x8000000000000000]).events = w :: rest ∧
      decode w = .ok i) ∧ ((coming []).cfg.legal = true ∧ (coming []).events = []) :=
  ⟨⟨_, _, .tick, by decide, rfl, by decide⟩, by decide⟩

/-- One word for each clause: reserved bits, a TICK and a RESET with data, a read with data, and a write, a read and an
event that decode. -/
theorem test_witness_MalformedWordsAreRefusedByNameAndOthersDecode :
    (coming [0]).cfg.legal = true ∧ (0x0000010000000000 : TW).extractLsb' 40 22 ≠ 0 ∧
    ((0xBFFFFFFF00000001 : TW).extractLsb' 40 22 ≠ 0) ∧
    ((0x8000000000000001 : TW).extractLsb' 40 22 = 0 ∧ (0x8000000000000001 : TW).extractLsb' 62 2 = 0b10 ∧
      (0x8000000000000001 : TW).extractLsb' 0 32 ≠ 0) ∧
    ((0xC00000FF00000000 : TW).extractLsb' 40 22 = 0 ∧ (0xC00000FF00000000 : TW).extractLsb' 62 2 = 0b11 ∧
      (0xC00000FF00000000 : TW).extractLsb' 32 8 ≠ 0) ∧
    ((0x0000000080000000 : TW).extractLsb' 40 22 = 0 ∧ (0x0000000080000000 : TW).extractLsb' 62 2 = 0b00 ∧
      (0x0000000080000000 : TW).extractLsb' 0 32 ≠ 0) ∧
    ((0x400000FFFFFFFFFF : TW).extractLsb' 40 22 = 0 ∧ (0x400000FFFFFFFFFF : TW).extractLsb' 62 2 = 0b01) ∧
    ((0x000000FF00000000 : TW).extractLsb' 40 22 = 0 ∧ (0x000000FF00000000 : TW).extractLsb' 62 2 = 0b00 ∧
      (0x000000FF00000000 : TW).extractLsb' 0 32 = 0) ∧
    ((0xC000000000000000 : TW).extractLsb' 40 22 = 0 ∧ (0xC000000000000000 : TW).extractLsb' 32 8 = 0 ∧
      (0xC000000000000000 : TW).extractLsb' 0 32 = 0) := by decide

/-- A word that decodes; one that matches no row; and one that matches rows of two weights (CMD_INIT, CMD_RSVD). -/
theorem test_witness_DecodingTakesTheHeaviestMatchingRow :
    decode 0x4000000000000001 = .ok .cmdInit ∧ (opcodeTable.all (fun r => !rowMatches r 0x0800000000000000)) = true ∧
    ((opcodeTable.filter (fun r => rowMatches r 0x4000000000000001)).map (fun r => (r.mnemonic, rowWeight r))) =
      [("CMD_INIT", 64), ("CMD_RSVD", 32), ("WR_ILLEGAL", 24)] := by decide

theorem test_witness_DecodeUndoesEncode :
    (Instr.cmdRsvd 5).wellFormed = true ∧ (Instr.wrIllegal 0x10 7).wellFormed = true ∧
      (Instr.rdIllegal 0xFF).wellFormed = true := by decide

theorem test_witness_EachEventHasOneWord :
    decode 0x400000100000002A = .ok (.wrIllegal 0x10 42) ∧ (Instr.wrIllegal 0x10 42).wellFormed = true := by decide

theorem test_witness_ResetMeetsTheStateInvariant : cfgW1.legal = true ∧ cfgW32.legal = true := by decide

theorem test_loaded_inv : (loaded .running).Inv := by decide

/-- A TICK of a running block, from the state program P4 has at line 3. -/
theorem test_witness_StepKeepsTheStateInvariant :
    (coming [0x8000000000000000]).Inv ∧ ∃ t, step (coming [0x8000000000000000]) = .next t := ⟨by decide, _, rfl⟩

theorem test_witness_EveryEventCompletes :
    (loaded .running).Inv ∧ fresh.Inv ∧ ∃ t, exec .tick { loaded .running with eCmd := true } = .next t :=
  ⟨by decide, by decide, _, rfl⟩

theorem test_witness_RunsNeverFault : (coming [0x8000000000000000, 0x4000000000000002]).Inv := by decide

/-- Program P4, lines 2 to 4. -/
theorem test_witness_RunOfAStreamRunsItsEvents :
    let s : State := { fresh with events := [0x4000000000000001, 0x4000000000000003, 0x8000000000000000, 0] }
    s.cfg.legal = true ∧ (∀ i ∈ [Instr.cmdInit, .cmdStart, .tick], i.wellFormed = true) ∧
      s.events = [Instr.cmdInit, .cmdStart, .tick].map encode ++ [0] := by decide

/-- The elements do change: ACC and OUT_A by a TICK, INC by a WR_FREQ, OFF by a WR_PHASE, LIFE by a CMD_STOP, and each error
bit by an erring transaction. -/
theorem test_witness_ElementsChangeOnlyByTheirWriters :
    (∃ t, exec .tick (loaded .running) = .next t ∧ t.acc ≠ (loaded .running).acc ∧ t.outA ≠ (loaded .running).outA) ∧
    (∃ t, exec (.wrFreq 32000) (loaded .running) = .next t ∧ t.inc ≠ (loaded .running).inc) ∧
    (∃ t, exec (.wrPhase 0x5A0000) (loaded .running) = .next t ∧ t.off ≠ (loaded .running).off) ∧
    (∃ t, exec .cmdStop (loaded .running) = .next t ∧ t.life ≠ (loaded .running).life) ∧
    (∃ t, exec (.wrPhase 0) fresh = .next t ∧ t.eNotInit ≠ fresh.eNotInit) ∧
    (∃ t, exec .cmdInit (loaded .stopped) = .next t ∧ t.eState ≠ (loaded .stopped).eState) ∧
    (∃ t, exec (.cmdRsvd 0) fresh = .next t ∧ t.eCmd ≠ fresh.eCmd) ∧
    (∃ t, exec (.rdIllegal 0x2C) fresh = .next t ∧ t.eAddr ≠ fresh.eAddr) :=
  ⟨⟨_, rfl, by decide⟩, ⟨_, rfl, by decide⟩, ⟨_, rfl, by decide⟩, ⟨_, rfl, by decide⟩, ⟨_, rfl, by decide⟩,
    ⟨_, rfl, by decide⟩, ⟨_, rfl, by decide⟩, ⟨_, rfl, by decide⟩⟩

theorem test_witness_TickOutsideRunningHasNoEffect : (loaded .stopped).life ≠ .running ∧ fresh.life ≠ .running := by decide

/-- ACC at both ends of its range; and a TICK outside RUNNING, and a DEINIT, with outputs to hold. -/
theorem test_witness_TickInRunningEmitsBothSamplesAndAdvances :
    (loaded .running).cfg.legal = true ∧ (0 : Word).toNat < 2 ^ (loaded .running).cfg.w ∧
    (255 : Word).toNat < 2 ^ (loaded .running).cfg.w ∧ (loaded .running).life = .running ∧
    (∃ t, exec .tick { loaded .stopped with outA := 7 } = .next t ∧ (loaded .stopped).life ≠ .running) ∧
    ∃ t, exec .cmdDeinit { loaded .running with outA := 7 } = .next t ∧ Instr.cmdDeinit ≠ .reset :=
  ⟨by decide, by decide, by decide, by decide, ⟨_, rfl, by decide⟩, _, rfl, by decide⟩

/-- Phase 0, the last phase, and the widest W. -/
theorem test_witness_SampleIsTheBlendOfNeighbouringEntries :
    cfg3.legal = true ∧ (255 : Word).toNat < 2 ^ cfg3.w ∧ cfgW32.legal = true ∧
      (0xFFFFFFFF : Word).toNat < 2 ^ cfgW32.w ∧ { cfgS with interp := false }.interp = false ∧ cfg3.interp = true := by decide

/-- K below W, K = W, N a multiple of 2^W, and the last phase of REF. -/
theorem test_witness_DecomposeIsBitSlicingForPowersOfTwo :
    (cfgS.n = 2 ^ 2 ∧ 2 ≤ cfgS.w ∧ (255 : Word).toNat < 2 ^ cfgS.w) ∧
    (cfgW1.n = 2 ^ 1 ∧ 1 = cfgW1.w ∧ (1 : Word).toNat < 2 ^ cfgW1.w) ∧ { cfgS with n := 1024 }.n = 4 * 2 ^ cfgS.w ∧
    (65535 : Word).toNat < 65536 := by decide

/-- Rising and falling pairs, those that differ by 1 among them, and both ends of the weight. -/
theorem test_witness_InterpolatedValueLiesBetweenTheEntries :
    cfgS.legal = true ∧ (255 : Sample).toNat < 2 ^ cfgS.a ∧ (254 : Sample).toNat < 2 ^ cfgS.a ∧
      0 < 2 ^ cfgS.w ∧ 255 < 2 ^ cfgS.w ∧ (254 : Sample).toNat < (255 : Sample).toNat ∧
      (255 : Sample).toNat = (254 : Sample).toNat + 1 ∧ 0 < 255 := by decide

theorem test_witness_ZeroOffsetMakesTheChannelsEqual :
    (loaded .running).cfg.legal = true ∧ (loaded .running).acc.toNat < 2 ^ (loaded .running).cfg.w ∧
      (loaded .running).life = .running ∧ (loaded .running).off = 0 := by decide

/-- INC at both ends of its range, a cycle of 8 TICKs (V-L1-4), and a number of TICKs below a cycle's. -/
theorem test_witness_AccumulatorClosesItsCycle :
    (loaded .running).cfg.legal = true ∧ (loaded .running).acc.toNat < 2 ^ (loaded .running).cfg.w ∧
      (loaded .running).life = .running ∧ 1 ≤ (1 : Word).toNat ∧ (255 : Word).toNat ≤ 2 ^ (loaded .running).cfg.w - 1 ∧
      cycleTicks { loaded .running with inc := 32 } = 8 ∧ cycleTicks { loaded .running with inc := 255 } = 256 ∧
      ∃ t, ticks 1 { loaded .running with inc := 32 } = .next t :=
  ⟨by decide, by decide, by decide, by decide, by decide, by decide, by decide, _, rfl⟩

/-- V-L1-7. -/
theorem test_witness_HalfTurnOffsetIsHalfACycleLater :
    cfgW1.legal = true ∧ cfgS.legal = true ∧ ({ loaded .running with off := 128 } : State).acc.toNat < 2 ^ cfgS.w ∧
      ({ loaded .running with off := 128 } : State).life = .running ∧
      1 ≤ ({ loaded .running with off := 128 } : State).inc.toNat ∧
      ({ loaded .running with off := 128 } : State).inc.toNat ≤ 2 ^ cfgS.w - 1 ∧
      ({ loaded .running with off := 128 } : State).off.toNat = 2 ^ (cfgS.w - 1) := by decide

theorem test_witness_UpperIncrementClampIsNeverActive :
    cfgW1.legal = true ∧ 0 ≤ cfgW1.sr * 128 ∧ cfgW32.legal = true ∧ 128 ≤ cfgW32.sr * 128 := by decide

/-- N above 2^W, with a code whose increment rounds to 0. -/
def cfgCoarse : Config := { cfgS with w := 1, n := 16, table := List.replicate 16 0 }

/-- The ends of the band, a tie (V-CV-6), W = 1, and an increment that is 0 before its clamp. -/
theorem test_witness_FrequencyQuantisationIsBounded :
    cfgS.legal = true ∧ cfgS.fmin ≤ 32500 ∧ 32500 ≤ cfgS.fmax ∧ 1 ≤ rawInc cfgS 32500 ∧ cfgS.n ≤ 2 ^ cfgS.w ∧
      cfgW1.legal = true ∧ cfgW1.fmin ≤ 64 ∧ 128 ≤ cfgW1.fmax ∧ cfgW1.n ≤ 2 ^ cfgW1.w ∧
      cfgCoarse.legal = true ∧ cfgCoarse.fmin ≤ 8000 ∧ 8000 ≤ cfgCoarse.fmax ∧ rawInc cfgCoarse 8000 = 0 := by decide

theorem test_witness_PhaseQuantisationIsBounded :
    cfgS.legal = true ∧ (loaded .running).life ≠ .uninit ∧
      ∃ t, exec (.wrPhase 0xFFA60000) (loaded .running) = .next t := ⟨by decide, by decide, _, rfl⟩

theorem test_witness_WriteFrequencyLoadsTheClampedCodeAndItsIncrement :
    (loaded .stopped).cfg.legal = true ∧ (loaded .stopped).life ≠ .uninit ∧ (loaded .running).life ≠ .uninit ∧
      fresh.life = .uninit := by decide

theorem test_witness_WritePhaseLoadsTheNormalisedCodeAndItsOffset :
    (loaded .stopped).cfg.legal = true ∧ (loaded .stopped).life ≠ .uninit ∧ (loaded .running).life ≠ .uninit ∧
      fresh.life = .uninit := by decide

theorem test_witness_ReadConfigurationReturnsTheParameters : fresh.cfg.legal = true ∧ State.reset.cfg.legal = true := by
  decide

theorem test_witness_ReadsOfTheEngineReturnItsElements :
    (loaded .stopped).life ≠ .uninit ∧ (loaded .stopped).Inv ∧ (loaded .stopped).cfg.w ≤ 8 ∧
      fresh.life = .uninit ∧ Instr.rdAcc ∈ [Instr.rdFreq, .rdPhase, .rdInc, .rdOffset, .rdAcc] := by decide

theorem test_witness_ReadAchievedFrequencyRoundsTheIncrement :
    (loaded .stopped).cfg.legal = true ∧ (loaded .stopped).inc.toNat < 2 ^ (loaded .stopped).cfg.w ∧
      (loaded .stopped).life ≠ .uninit ∧ fresh.life = .uninit := by decide

/-- A misaligned offset, the first unmapped one, the last, CMD; a write to the first read-only one; codes 0 and 5. -/
theorem test_witness_IllegalAccessesAndReservedCodesRaise :
    (0x05 : Offset).extractLsb' 0 2 ≠ 0 ∧ 0x2C ≤ (0x2C : Offset).toNat ∧ 0x2C ≤ (0xFF : Offset).toNat ∧
      ((0x10 : Offset) ≠ 0x00 ∧ (0x10 : Offset) ≠ 0x04 ∧ (0x10 : Offset) ≠ 0x08 ∧ (0x10 : Offset) ≠ 0x0C) ∧
      ((0 : Word) ≠ 1 ∧ (0 : Word) ≠ 2 ∧ (0 : Word) ≠ 3 ∧ (0 : Word) ≠ 4) ∧
      ((5 : Word) ≠ 1 ∧ (5 : Word) ≠ 2 ∧ (5 : Word) ≠ 3 ∧ (5 : Word) ≠ 4) := by decide

theorem test_witness_ControlBeforeInitRaisesNotInitialised :
    fresh.life = .uninit ∧ Instr.cmdStop ∈ [Instr.rdFreq, .rdPhase, .rdInc, .rdOffset, .rdAcc, .rdFreqAch, .wrFreq 1,
      .wrPhase 1, .cmdStart, .cmdStop] := by decide

theorem test_witness_InitLoadsTheParameters :
    fresh.cfg.legal = true ∧ fresh.life = .uninit ∧ (loaded .stopped).life ≠ .uninit := by decide

theorem test_witness_DeinitStartAndStopSetTheLifecycle :
    (loaded .stopped).life ≠ .uninit ∧ (loaded .running).life ≠ .uninit ∧ fresh.life = .uninit ∧
      Instr.cmdStop ∈ [Instr.cmdStart, .cmdStop] := by decide

theorem test_witness_LifecycleFollowsTheTransitionTable :
    (∃ t, exec .cmdInit (loaded .running) = .next t ∧ (loaded .running).life ≠ .uninit) ∧
    (∃ t, exec .cmdStart fresh = .next t ∧ fresh.life = .uninit) ∧
    (∃ t, exec .cmdStop fresh = .next t ∧ fresh.life = .uninit) ∧ (∃ t, exec (.cmdRsvd 0) fresh = .next t) :=
  ⟨⟨_, rfl, by decide⟩, ⟨_, rfl, by decide⟩, ⟨_, rfl, by decide⟩, ⟨_, rfl⟩⟩

/-- A TICK after the stop, and a CMD_INIT and a RESET too. -/
theorem test_witness_NoSampleAfterStopUntilStart :
    Instr.cmdStart ∉ [Instr.tick, .cmdInit, .reset] ∧
      ∃ t, execAll [.cmdStop, .tick, .cmdInit, .reset] (loaded .running) = .next t := ⟨by decide, _, rfl⟩

/-- Program P4's updates while stopped: TICK, WR_FREQ, WR_PHASE. -/
theorem test_witness_StopThenStartResumesFromTheSamePhase :
    (loaded .running).cfg.legal = true ∧ (loaded .running).acc.toNat < 2 ^ (loaded .running).cfg.w ∧
      (loaded .running).life = .running ∧
      ∀ i ∈ [Instr.tick, .wrFreq 128000, .wrPhase 0xB40000, .wrStatus 1, .rdAcc, .rdIllegal 0],
        i = .tick ∨ (∃ d, i = .wrPhase d) ∨ (∃ d, i = .wrStatus d) ∨ (∃ d, i = .wrFreq d) ∨
        i ∈ [Instr.rdStatus, .rdFreq, .rdPhase, .rdInc, .rdOffset, .rdAcc, .rdFreqAch, .rdConfig, .rdTableSize,
          .rdSampleRate] ∨ (∃ a, i = .rdIllegal a) := by
  refine ⟨by decide, by decide, by decide, ?_⟩
  simp

/-- A sample after INIT and START; and, for the last clause, events before INIT and between INIT and START. -/
theorem test_witness_SamplesNeedInitThenStart :
    fresh.life = .uninit ∧ ∃ t, execAll [.cmdInit, .cmdStart, .tick] fresh = .next t ∧
      sinkWrites t.trace ≠ sinkWrites fresh.trace ∧ Instr.reset ∈ [Instr.cmdDeinit, .reset] ∧
      fresh.cfg.legal = true ∧ Instr.cmdInit ∉ [Instr.tick, .cmdStart, .wrFreq 7] ∧
      (∀ i ∈ [Instr.cmdStart, .cmdDeinit, .reset], i ∉ [Instr.tick, .wrFreq 32000, .wrPhase 0x5A0000, .rdAcc, .cmdInit]) :=
  ⟨by decide, _, rfl, by decide, by decide, by decide, by decide, by decide⟩

/-- An event of each of the four errors answers ERR; a read answers OK. -/
theorem test_witness_AnErringTransactionOnlySetsOneBit :
    (∃ t, exec .rdFreq fresh = .next t ∧ t.trace = fresh.trace ++ [.response .err 0]) ∧
    (∃ t, exec .cmdInit (loaded .stopped) = .next t ∧ t.trace = (loaded .stopped).trace ++ [.response .err 0]) ∧
    (∃ t, exec (.cmdRsvd 0) fresh = .next t ∧ t.trace = fresh.trace ++ [.response .err 0]) ∧
    (∃ t, exec (.rdIllegal 0x2C) fresh = .next t ∧ t.trace = fresh.trace ++ [.response .err 0]) ∧
    (∃ t, exec .rdTableSize fresh = .next t ∧ t.trace = fresh.trace ++ [.response .ok 4]) :=
  ⟨⟨_, rfl, by decide⟩, ⟨_, rfl, by decide⟩, ⟨_, rfl, by decide⟩, ⟨_, rfl, by decide⟩, ⟨_, rfl, by decide⟩⟩

/-- One word for each bit, that sets it. -/
theorem test_witness_EachErrorBitIsSetExactlyByItsCauses :
    (decode 0x0000000800000000 = .ok .rdFreq ∧ fresh.eNotInit = false ∧
      ∃ t, exec .rdFreq fresh = .next t ∧ t.eNotInit = true) ∧
    (decode 0x4000000000000001 = .ok .cmdInit ∧ (loaded .running).eState = false ∧
      ∃ t, exec .cmdInit (loaded .running) = .next t ∧ t.eState = true) ∧
    (decode 0x4000000000000000 = .ok (.cmdRsvd 0) ∧ fresh.eCmd = false ∧
      ∃ t, exec (.cmdRsvd 0) fresh = .next t ∧ t.eCmd = true) ∧
    (decode 0x4000001000000000 = .ok (.wrIllegal 0x10 0) ∧ fresh.eAddr = false ∧
      ∃ t, exec (.wrIllegal 0x10 0) fresh = .next t ∧ t.eAddr = true) :=
  ⟨⟨by decide, by decide, _, rfl, by decide⟩, ⟨by decide, by decide, _, rfl, by decide⟩,
    ⟨by decide, by decide, _, rfl, by decide⟩, ⟨by decide, by decide, _, rfl, by decide⟩⟩

/-- All four bits set, and a WR_STATUS that clears one of them. -/
theorem test_witness_ErrorBitsStayUntilClearedOrReset :
    ∃ t, exec (.wrStatus 0x100) { fresh with eNotInit := true, eState := true, eCmd := true, eAddr := true } = .next t ∧
      (t.eNotInit, t.eState, t.eCmd, t.eAddr) = (false, true, true, true) ∧ Instr.wrStatus 0x100 ≠ .reset ∧
      (0x100 : Word).getLsbD 8 = true ∧ (0xF00 : Word).getLsbD 9 = true ∧ (0xF00 : Word).getLsbD 10 = true ∧
      (0xF00 : Word).getLsbD 11 = true ∧ ∃ u, exec .reset fresh = .next u :=
  ⟨_, rfl, by decide, by decide, by decide, by decide, by decide, by decide, _, rfl⟩

theorem test_witness_ErrorsAreRaisedInTheOrderOfPrecedence :
    (∃ e, exec (.wrIllegal 0x10 1) (loaded .running) = .next e ∧
      e.trace = (loaded .running).trace ++ [.response .err 0]) ∧
    ∃ t, exec .tick (loaded .running) = .next t := ⟨⟨_, rfl, by decide⟩, _, rfl⟩

theorem test_witness_RepeatingAnEventIsIdempotent :
    (∃ t u, Instr.wrFreq 32000 ≠ .tick ∧ Instr.wrFreq 32000 ≠ .cmdInit ∧
      exec (.wrFreq 32000) (loaded .running) = .next t ∧ exec (.wrFreq 32000) t = .next u) ∧
    (∃ t u, exec .cmdInit fresh = .next t ∧ exec .cmdInit t = .next u) :=
  ⟨⟨_, _, by decide, by decide, rfl, rfl⟩, ⟨_, _, rfl, rfl⟩⟩

/-- 390.625 Hz is the code 100000, a thousandth of a hertz is none; 2^24 Hz is out of range; -90 degrees is a code, and
32768 degrees is out of range. -/
theorem test_witness_PseudoInstructionsExpandAsListed :
    ((390625 : Int) * 256 = 100000 * (1000 : Nat) ∧ (0 : Int) ≤ 100000 ∧ (100000 : Int) < 2 ^ 32) ∧
    (¬∃ v : Int, (1 : Int) * 256 = v * (1000 : Nat) ∧ 0 ≤ v ∧ v < 2 ^ 32) ∧
    (¬∃ v : Int, (16777216 : Int) * 256 = v * (1 : Nat) ∧ 0 ≤ v ∧ v < 2 ^ 32) ∧
    ((-90 : Int) * 65536 = -5898240 * (1 : Nat) ∧ -2 ^ 31 ≤ (-5898240 : Int) ∧ (-5898240 : Int) < 2 ^ 31) ∧
    (¬∃ v : Int, (32768 : Int) * 65536 = v * (1 : Nat) ∧ -2 ^ 31 ≤ v ∧ v < 2 ^ 31) := by
  refine ⟨by decide, ?_, ?_, by decide, ?_⟩ <;> rintro ⟨v, h⟩ <;> omega

theorem test_witness_AssembledWordsDecode :
    assemble (.wrAt 9 5) = some [0x4000000900000005] ∧ assemble (.rd .cmd) = some [0] := by decide

end Sys2Proof.Tests
end

section
/-! What a step answers, case by case, that no event is refused once it has been decoded, and O3. -/

namespace Sys2Proof.Machine

/-! ## What an event can answer -/

/-- CMD_INIT completes in every LIFE, with the parameters loaded or with E_STATE (44_lifecycle.md R192). -/
theorem execCmdInit_completes (s : State) : ∃ t, execCmdInit s = .next t := by
  cases h : s.life with
  | uninit => exact ⟨_, by rw [execCmdInit, h]⟩
  | stopped => exact ⟨_, by rw [execCmdInit, h]⟩
  | running => exact ⟨_, by rw [execCmdInit, h]⟩

/-- Every event but a TICK completes, from every state (42_tick.md R148). -/
theorem exec_completes_of_ne_tick {i : Instr} (h : i ≠ .tick) (s : State) : ∃ t, exec i s = .next t := by
  cases i with
  | tick => exact absurd rfl h
  | cmdInit => exact execCmdInit_completes s
  | _ => exact ⟨_, rfl⟩

theorem produceSamples_ne_refused (s : State) (r : Refusal) : produceSamples s ≠ .refused r := by
  unfold produceSamples
  split <;> simp

theorem execTick_ne_refused (s : State) (r : Refusal) : execTick s ≠ .refused r := by
  unfold execTick
  split
  · simp
  · simp
  · exact produceSamples_ne_refused s r

/-- A refusal is about the configuration or the word, never about a decoded event. -/
theorem exec_ne_refused (i : Instr) (s : State) (r : Refusal) : exec i s ≠ .refused r := by
  by_cases h : i = .tick
  · subst h
    exact execTick_ne_refused s r
  · obtain ⟨t, ht⟩ := exec_completes_of_ne_tick h s
    simp [ht]

/-! ## The step, case by case -/

theorem step_of_illegal {s : State} (h : s.cfg.legal = false) : step s = .refused .illegalConfiguration := by
  rw [step, fetch_of_illegal h]

theorem step_of_nil {s : State} (h : s.cfg.legal = true) (he : s.events = []) : step s = .next s := by
  rw [step, fetch_of_nil h he]

theorem step_of_decode_ok {s : State} {w : TW} {rest : List TW} {i : Instr} (h : s.cfg.legal = true)
    (he : s.events = w :: rest) (hd : decode w = .ok i) : step s = exec i { s with events := rest } := by
  simp [step, fetch_of_cons h he, takeWord, hd]

theorem step_of_decode_error {s : State} {w : TW} {rest : List TW} {e : DecodeError} (h : s.cfg.legal = true)
    (he : s.events = w :: rest) (hd : decode w = .error e) : step s = .refused (refusalOf e) := by
  simp [step, fetch_of_cons h he, takeWord, hd]

theorem refusalOf_ne_illegalConfiguration (e : DecodeError) : refusalOf e ≠ .illegalConfiguration := by
  cases e <;> simp [refusalOf]

/-- Under a legal configuration the step is idle, runs an event or refuses a word by another name. -/
theorem step_ne_illegalConfiguration_of_legal {s : State} (h : s.cfg.legal = true) :
    step s ≠ .refused .illegalConfiguration := by
  cases he : s.events with
  | nil => simp [step_of_nil h he]
  | cons w rest =>
    cases hd : decode w with
    | ok i =>
      rw [step_of_decode_ok h he hd]
      exact exec_ne_refused i _ _
    | error e => simpa [step_of_decode_error h he hd] using refusalOf_ne_illegalConfiguration e

theorem step_eq_illegalConfiguration_iff (s : State) :
    step s = .refused .illegalConfiguration ↔ ¬s.cfg.legal = true :=
  ⟨fun h hl => step_ne_illegalConfiguration_of_legal hl h, fun h => step_of_illegal (Bool.eq_false_iff.mpr h)⟩

/-- Settles O3: the step refuses so exactly under a configuration that is not legal, and `legal_iff` says which are. -/
theorem illegalConfigurationIsRefusedBeforeAnyEvent : Obligations.IllegalConfigurationIsRefusedBeforeAnyEvent := by
  intro s
  rw [step_eq_illegalConfiguration_iff, legal_iff]

end Sys2Proof.Machine
end

section
/-! Everything an event that answers a next state can have done, and O15. -/

namespace Sys2Proof.Machine

/-! ## The events by what they may do -/

/-- The events that need an initialised block (43_control.md R160, R175; 44_lifecycle.md R194, R195). -/
def NeedsInit (i : Instr) : Prop :=
  i ∈ [Instr.rdFreq, .rdPhase, .rdInc, .rdOffset, .rdAcc, .rdFreqAch, .cmdStart, .cmdStop] ∨
    (∃ d, i = .wrFreq d) ∨ ∃ d, i = .wrPhase d

/-- The event raises the error in this LIFE (60_exceptions.md R211 to R214). -/
def Raises (i : Instr) (l : Life) : ErrorCode → Prop
  | .notInit => l = .uninit ∧ NeedsInit i
  | .state => l ≠ .uninit ∧ i = .cmdInit
  | .cmd => ∃ c, i = .cmdRsvd c
  | .addr => (∃ a, i = .rdIllegal a) ∨ ∃ a d, i = .wrIllegal a d

/-- The reads of a legal offset (43_control.md R162 to R173). -/
def legalReads : List Instr :=
  [.rdStatus, .rdFreq, .rdPhase, .rdInc, .rdOffset, .rdAcc, .rdFreqAch, .rdConfig, .rdTableSize, .rdSampleRate]

/-- `Effect s i t`: event `i` takes `s` to `t`, one constructor for each way an event can complete. The word a legal read
answers is left open: a read changes nothing else. -/
inductive Effect (s : State) : Instr → State → Prop
  | idleTick : s.life ≠ .running → Effect s .tick s
  | tick {va vb : Sample} : s.life = .running → sample s.cfg s.acc = some va →
      sample s.cfg (phaseAdd s.cfg s.acc s.off) = some vb → Effect s .tick (advance (emitSamples va vb s))
  | reset : Effect s .reset { releaseEngine s with
      eNotInit := false, eState := false, eCmd := false, eAddr := false, outA := 0, outB := 0 }
  | init : s.life = .uninit → Effect s .cmdInit (respond .ok 0 (setLife .stopped
      (loadPhase (phaseOperand s.cfg.initPhase) (loadFreq (freqOperand s.cfg.initFreq) { s with acc := 0 }))))
  | deinit : Effect s .cmdDeinit (respond .ok 0 (releaseEngine s))
  | start : s.life ≠ .uninit → Effect s .cmdStart (respond .ok 0 (setLife .running s))
  | stop : s.life ≠ .uninit → Effect s .cmdStop (respond .ok 0 (setLife .stopped s))
  | wrStatus (d : Word) : Effect s (.wrStatus d) (respond .ok 0 (clearErrors (clearMask d) s))
  | wrFreq (d : Word) : s.life ≠ .uninit → Effect s (.wrFreq d) (respond .ok 0 (loadFreq (freqOperand d) s))
  | wrPhase (d : Word) : s.life ≠ .uninit → Effect s (.wrPhase d) (respond .ok 0 (loadPhase (phaseOperand d) s))
  | read {i : Instr} (v : Word) : i ∈ legalReads → Effect s i (respond .ok v s)
  | raise {i : Instr} {e : ErrorCode} : Raises i s.life e → Effect s i (raise e s)

/-! ## Each completing event has one of these effects -/

theorem effect_of_execTick {s t : State} (h : execTick s = .next t) : Effect s .tick t := by
  obtain ⟨hl, rfl⟩ | ⟨hl, va, vb, ha, hb, rfl⟩ := execTick_next h
  · exact .idleTick hl
  · exact .tick hl ha hb

theorem effect_of_execCmdInit {s t : State} (h : execCmdInit s = .next t) : Effect s .cmdInit t := by
  unfold execCmdInit at h
  split at h <;> cases h
  · exact .init ‹_›
  · exact .raise ⟨by simp [*], rfl⟩
  · exact .raise ⟨by simp [*], rfl⟩

/-- The lifecycle gate: E_NOTINIT in UNINIT, the operation's own effect elsewhere. -/
theorem effect_of_gate {s t : State} {i : Instr} (hi : NeedsInit i) (ht : s.life ≠ .uninit → Effect s i t) :
    Effect s i (ifInitialised s t) := by
  obtain ⟨hl, h⟩ | ⟨hl, h⟩ := ifInitialised_cases s t
  · rw [h]
    exact .raise ⟨hl, hi⟩
  · rw [h]
    exact ht hl

theorem effect_of_readGated {s : State} {i : Instr} (v : Word) (hi : NeedsInit i) (hr : i ∈ legalReads) :
    Effect s i (readGated v s) :=
  effect_of_gate hi fun _ => .read v hr

/-- Says once what an event that answers a next state has done. -/
theorem effect_of_exec {i : Instr} {s t : State} (h : exec i s = .next t) : Effect s i t := by
  cases i with
  | tick => exact effect_of_execTick h
  | cmdInit => exact effect_of_execCmdInit h
  | reset => cases h; exact .reset
  | cmdDeinit => cases h; exact .deinit
  | cmdStart => cases h; exact effect_of_gate (.inl (by simp)) .start
  | cmdStop => cases h; exact effect_of_gate (.inl (by simp)) .stop
  | wrStatus d => cases h; exact .wrStatus d
  | wrFreq d => cases h; exact effect_of_gate (.inr (.inl ⟨d, rfl⟩)) (.wrFreq d)
  | wrPhase d => cases h; exact effect_of_gate (.inr (.inr ⟨d, rfl⟩)) (.wrPhase d)
  | cmdRsvd c => cases h; exact .raise ⟨c, rfl⟩
  | wrIllegal a d => cases h; exact .raise (.inr ⟨a, d, rfl⟩)
  | rdIllegal a => cases h; exact .raise (.inl ⟨a, rfl⟩)
  | rdStatus | rdConfig | rdTableSize | rdSampleRate => cases h; exact .read _ (by simp [legalReads])
  | rdFreq | rdPhase | rdInc | rdOffset | rdAcc | rdFreqAch =>
    cases h; exact effect_of_readGated _ (.inl (by simp)) (by simp [legalReads])

/-! ## Who writes which element -/

/-- Settles O15: no effect changes an element of which its event is not a writer. -/
theorem elementsChangeOnlyByTheirWriters : Obligations.ElementsChangeOnlyByTheirWriters := by
  intro i s t h
  cases effect_of_exec h with
  | tick hl => simp [hl]
  | idleTick | reset | init | deinit | start | stop | wrStatus | wrFreq | wrPhase | read => simp
  | @raise _ e hr =>
    cases e with
    | notInit | state | cmd => simp_all [Raises, NeedsInit]
    | addr => obtain ⟨a, rfl⟩ | ⟨a, d, rfl⟩ := hr <;> simp

end Sys2Proof.Machine
end

section
/-! The invariant of 10_state.md R20 and R32: each operation on the state keeps or establishes it; O10 and O11. -/

namespace Sys2Proof.Machine

/-! ## The parts of the invariant -/

/-- What a load of the frequency establishes: FREQ_REQ within its clamp and INC its increment (R32, R20). -/
def FreqLoaded (s : State) : Prop :=
  s.cfg.fmin ≤ s.freqReq.toNat ∧ s.freqReq.toNat ≤ s.cfg.fmax ∧ s.inc.toNat = freqToInc s.cfg s.freqReq.toNat ∧
    1 ≤ s.inc.toNat ∧ s.inc.toNat < 2 ^ s.cfg.w

/-- What a load of the phase establishes: PHASE_REQ within one turn and OFF its offset (R32, R20). -/
def PhaseLoaded (s : State) : Prop :=
  s.phaseReq.toNat < Config.deg360 ∧ s.off.toNat = phaseToOff s.cfg s.phaseReq.toNat ∧ s.off.toNat < 2 ^ s.cfg.w

/-- OUT_A and OUT_B are samples (R30). -/
def OutputsFit (s : State) : Prop := s.outA.toNat ≤ s.cfg.amax ∧ s.outB.toNat ≤ s.cfg.amax

theorem inv_iff_of_uninit {s : State} (hl : s.life = .uninit) :
    s.Inv ↔ s.cfg.legal = true ∧ OutputsFit s ∧ EngineReleased s := by
  constructor
  · rintro ⟨hc, ⟨-, -, -, ho⟩, hu, -⟩
    exact ⟨hc, ho, hu hl⟩
  · rintro ⟨hc, ho, hr⟩
    obtain ⟨ha, hi, hf, -, -⟩ := id hr
    exact ⟨hc, ⟨by simp [ha], by simp [hi], by simp [hf], ho⟩, fun _ => hr, fun h => absurd hl h⟩

theorem inv_iff_of_initialised {s : State} (hl : s.life ≠ .uninit) :
    s.Inv ↔ s.cfg.legal = true ∧ s.acc.toNat < 2 ^ s.cfg.w ∧ OutputsFit s ∧ FreqLoaded s ∧ PhaseLoaded s := by
  constructor
  · rintro ⟨hc, ⟨ha, hi, hf, ho⟩, -, hn⟩
    obtain ⟨hmin, hmax, hinc, hpos, hph, hoff⟩ := hn hl
    exact ⟨hc, ha, ho, ⟨hmin, hmax, hinc, hpos, hi⟩, hph, hoff, hf⟩
  · rintro ⟨hc, ha, ho, ⟨hmin, hmax, hinc, hpos, hi⟩, hph, hoff, hf⟩
    exact ⟨hc, ⟨ha, hi, hf, ho⟩, fun h => absurd h hl, fun _ => ⟨hmin, hmax, hinc, hpos, hph, hoff⟩⟩

theorem inv_outputsFit {s : State} (hs : s.Inv) : OutputsFit s := by
  obtain ⟨-, ⟨-, -, -, ho⟩, -, -⟩ := hs
  exact ho

/-! ## The operations -/

/-- The invariant speaks neither of the trace, nor of the error bits, nor of the stream. -/
theorem respond_inv {r : Resp} {d : Word} {s : State} (hs : s.Inv) : (respond r d s).Inv := hs

theorem raise_inv (e : ErrorCode) {s : State} (hs : s.Inv) : (raise e s).Inv := by
  cases e <;> exact hs

theorem releaseEngine_inv {s : State} (hs : s.Inv) : (releaseEngine s).Inv :=
  (inv_iff_of_uninit (releaseEngine_life s)).mpr ⟨hs.1, inv_outputsFit (s := s) hs, rfl, rfl, rfl, rfl, rfl⟩

theorem setLife_inv {l : Life} {s : State} (hs : s.Inv) (hl : s.life ≠ .uninit) (h : l ≠ .uninit) :
    (setLife l s).Inv :=
  (inv_iff_of_initialised (s := setLife l s) h).mpr ((inv_iff_of_initialised hl).mp hs)

/-- A frequency load under a legal configuration (43_control.md R161), whatever the code. -/
theorem loadFreq_freqLoaded {s : State} (hc : s.cfg.legal = true) (f : Nat) : FreqLoaded (loadFreq f s) := by
  obtain ⟨hmin, hmax⟩ := clampFreq_bounds hc f
  obtain ⟨hw, -⟩ := (legal_iff s.cfg).mp hc
  obtain ⟨hpos, hlt⟩ := freqToInc_bounds hw (clampFreq s.cfg f)
  have hP : 0 < 2 ^ s.cfg.w := by positivity
  simp only [FreqLoaded, loadFreq_cfg, loadFreq_freqReq, loadFreq_inc, toNat_clampFreq hc, toNat_freqToInc hc]
  exact ⟨hmin, hmax, trivial, hpos, by omega⟩

/-- A phase load under a legal configuration (43_control.md R163), whatever the code. -/
theorem loadPhase_phaseLoaded {s : State} (hc : s.cfg.legal = true) (d : Int) : PhaseLoaded (loadPhase d s) := by
  simp only [PhaseLoaded, loadPhase_cfg, loadPhase_phaseReq, loadPhase_off, toNat_normPhase, toNat_phaseToOff hc]
  exact ⟨normPhase_lt d, trivial, phaseToOff_lt _ _⟩

theorem loadFreq_inv {s : State} (hs : s.Inv) (hl : s.life ≠ .uninit) (f : Nat) : (loadFreq f s).Inv := by
  obtain ⟨hc, ha, ho, -, hp⟩ := (inv_iff_of_initialised hl).mp hs
  exact (inv_iff_of_initialised (s := loadFreq f s) hl).mpr ⟨hc, ha, ho, loadFreq_freqLoaded hc f, hp⟩

theorem loadPhase_inv {s : State} (hs : s.Inv) (hl : s.life ≠ .uninit) (d : Int) : (loadPhase d s).Inv := by
  obtain ⟨hc, ha, ho, hf, -⟩ := (inv_iff_of_initialised hl).mp hs
  exact (inv_iff_of_initialised (s := loadPhase d s) hl).mpr ⟨hc, ha, ho, hf, loadPhase_phaseLoaded hc d⟩

/-- INIT establishes the invariant of an initialised block (44_lifecycle.md R192). -/
theorem init_inv {s : State} (hs : s.Inv) (f : Nat) (d : Int) :
    (setLife .stopped (loadPhase d (loadFreq f { s with acc := 0 }))).Inv := by
  have hc : s.cfg.legal = true := hs.1
  refine (inv_iff_of_initialised (by simp)).mpr ⟨hc, by simp, inv_outputsFit (s := s) hs, ?_, ?_⟩
  · exact loadFreq_freqLoaded (s := { s with acc := 0 }) hc f
  · exact loadPhase_phaseLoaded (s := loadFreq f { s with acc := 0 }) hc d

/-- A producing TICK: ACC is reduced mod 2^W and both outputs are samples (42_tick.md R145, R147). -/
theorem tick_inv {s : State} {va vb : Sample} {pa pb : Word} (hs : s.Inv) (hl : s.life ≠ .uninit)
    (ha : sample s.cfg pa = some va) (hb : sample s.cfg pb = some vb) : (advance (emitSamples va vb s)).Inv := by
  obtain ⟨hc, -, -, hf, hp⟩ := (inv_iff_of_initialised hl).mp hs
  obtain ⟨-, hw, -, -, -, hA, -⟩ := (legal_iff s.cfg).mp hc
  refine (inv_iff_of_initialised (s := advance (emitSamples va vb s)) hl).mpr ⟨hc, phaseAdd_lt hw _ _, ⟨?_, ?_⟩, hf, hp⟩
  · exact Nat.le_pred_of_lt (sample_lt hA ha)
  · exact Nat.le_pred_of_lt (sample_lt hA hb)

/-! ## Reset, events, steps -/

theorem resetOf_inv {c : Config} (hc : c.legal = true) : (State.resetOf c).Inv :=
  (inv_iff_of_uninit rfl).mpr ⟨hc, by simp [OutputsFit], rfl, rfl, rfl, rfl, rfl⟩

theorem reset_inv {s : State} (hs : s.Inv) : ({ releaseEngine s with
    eNotInit := false, eState := false, eCmd := false, eAddr := false, outA := 0, outB := 0 } : State).Inv :=
  (inv_iff_of_uninit rfl).mpr ⟨hs.1, by simp [OutputsFit], rfl, rfl, rfl, rfl, rfl⟩

/-- Every event that completes keeps the invariant. -/
theorem effect_inv {i : Instr} {s t : State} (hs : s.Inv) (h : Effect s i t) : t.Inv := by
  cases h with
  | idleTick => exact hs
  | tick hl ha hb => exact tick_inv hs (by simp [hl]) ha hb
  | reset => exact reset_inv hs
  | init => exact respond_inv (init_inv hs _ _)
  | deinit => exact respond_inv (releaseEngine_inv hs)
  | start hl => exact respond_inv (setLife_inv hs hl (by decide))
  | stop hl => exact respond_inv (setLife_inv hs hl (by decide))
  | wrStatus => exact hs
  | wrFreq d hl => exact respond_inv (loadFreq_inv hs hl _)
  | wrPhase d hl => exact respond_inv (loadPhase_inv hs hl _)
  | read => exact respond_inv hs
  | raise => exact raise_inv _ hs

/-- Settles O10: after power-on the block is uninitialised, its engine released and its outputs 0. -/
theorem resetMeetsTheStateInvariant : Obligations.ResetMeetsTheStateInvariant :=
  ⟨resetOf_inv (by decide), fun _ => resetOf_inv⟩

/-- Settles O11: a step is idle or runs one event, and every event keeps the invariant. -/
theorem stepKeepsTheStateInvariant : Obligations.StepKeepsTheStateInvariant := by
  intro s t hs h
  obtain ⟨-, ⟨-, rfl⟩ | ⟨w, rest, i, -, -, hi⟩⟩ := step_next h
  · exact hs
  · exact effect_inv (s := { s with events := rest }) hs (effect_of_exec hi)

end Sys2Proof.Machine
end

section
/-! O1: the reset values of 10_state.md R46; and O33: the rounding of FREQ_ACH. -/

namespace Sys2Proof.Machine

/-- Settles O1: RESET writes R46's values over the released engine, and power-on starts with them. -/
theorem resetGivesEveryElementItsResetValue : Obligations.ResetGivesEveryElementItsResetValue := by
  refine ⟨?_, fun s => rfl, fun c => ?_, ?_⟩
  · exact decode_of_reset (by decide) (by decide) (by decide) (by decide)
  · simp
  · simp [State.reset]

/-! ## Rounding half up -/

theorem rhu_le_of_le_mul {a b k : Nat} (hb : 0 < b) (h : a ≤ k * b) : rhu a b ≤ k := by
  rw [rhu, ← Nat.lt_succ_iff, Nat.div_lt_iff_lt_mul (by omega)]
  calc b + 2 * a ≤ b + 2 * (k * b) := by omega
    _ < k.succ * (2 * b) := by rw [Nat.succ_mul]; linarith

/-- Rounding once costs at most half a unit (41_conversion.md R120). -/
theorem two_mul_abs_rhu_sub_le (a : Nat) {b : Nat} (hb : 0 < b) :
    2 * |((rhu a b * b : Nat) : Int) - (a : Int)| ≤ b := by
  have hdiv : 2 * b * rhu a b + (b + 2 * a) % (2 * b) = b + 2 * a := Nat.div_add_mod _ _
  have hmod : (b + 2 * a) % (2 * b) < 2 * b := Nat.mod_lt _ (by omega)
  have hq : 2 * b * rhu a b = 2 * (rhu a b * b) := by ring
  obtain ⟨habs, -⟩ | ⟨habs, -⟩ := abs_cases (((rhu a b * b : Nat) : Int) - (a : Int)) <;> omega

/-! ## The achieved frequency -/

/-- IncToFreq of a W-bit increment is at most SR × 256 (43_control.md R168). -/
theorem incToFreq_le {c : Config} {inc : Nat} (h : inc < 2 ^ c.w) : incToFreq c inc ≤ c.sr * 256 := by
  refine rhu_le_of_le_mul (by simp [Config.phaseMod]) ?_
  rw [Nat.mul_comm inc]
  exact Nat.mul_le_mul_left _ h.le

/-- FREQ_ACH as a read answers it: nothing of the number is lost in 32 bits. -/
theorem toNat_incToFreq {c : Config} (hc : c.legal = true) {inc : Nat} (h : inc < 2 ^ c.w) :
    (BitVec.ofNat 32 (incToFreq c inc)).toNat = incToFreq c inc := by
  have hle := incToFreq_le h
  obtain ⟨-, -, -, -, -, -, -, hsr, -⟩ := (legal_iff c).mp hc
  exact toNat_ofNat_of_lt (by omega)

theorem exec_rdFreqAch_of_initialised {s : State} (hl : s.life ≠ .uninit) : exec .rdFreqAch s =
    .next { s with trace := s.trace ++ [.response .ok (BitVec.ofNat 32 (incToFreq s.cfg s.inc.toNat))] } :=
  congrArg _ (ifInitialised_of_ne_uninit _ hl)

theorem exec_rdFreqAch_of_uninit {s : State} (hl : s.life = .uninit) :
    exec .rdFreqAch s = .next { s with eNotInit := true, trace := s.trace ++ [.response .err 0] } :=
  congrArg _ (ifInitialised_of_uninit _ hl)

/-- Settles O33: the word read is IncToFreq(INC), one `rhu` of the exact quotient. -/
theorem readAchievedFrequencyRoundsTheIncrement : Obligations.ReadAchievedFrequencyRoundsTheIncrement := by
  refine ⟨decode_of_read (by decide) (by decide) (by decide), fun s hc hi hl => ?_, fun s => exec_rdFreqAch_of_uninit⟩
  refine ⟨_, ?_, ?_, ?_, exec_rdFreqAch_of_initialised hl⟩ <;> rw [toNat_incToFreq hc hi]
  · exact rhu_eq _ _
  · exact incToFreq_le hi
  · exact_mod_cast two_mul_abs_rhu_sub_le (s.inc.toNat * s.cfg.fscale) (Nat.two_pow_pos s.cfg.w)

end Sys2Proof.Machine
end

section
/-! The codec as the stream uses it: every event's word decodes to it, and what a word decodes to is well formed; O2. -/

namespace Sys2Proof

/-! ## Decoding the word of an event -/

theorem decode_packTW_read (a : Offset) : decode (packTW kindRead a 0) = .ok (decodeRead a) := by
  rw [decode_of_read (by simp) (by simp) (by simp), addrOf_packTW]

theorem decode_packTW_write (a : Offset) (d : Word) : decode (packTW kindWrite a d) = .ok (decodeWrite a d) := by
  rw [decode_of_write (by simp) (by simp), addrOf_packTW, dataOf_packTW]

/-- Decoding undoes encoding; a fall-back row needs that its operand is no other row's (30_encoding.md R81). -/
theorem decode_encode {i : Instr} (h : i.wellFormed = true) : decode (encode i) = .ok i := by
  cases i with
  | tick => exact decode_of_tick (by decide) (by decide) (by decide) (by decide)
  | reset => exact decode_of_reset (by decide) (by decide) (by decide) (by decide)
  | cmdRsvd code =>
    have hc : isCommandCode code = false := by simpa [Instr.wellFormed] using h
    rw [encode, decode_packTW_write, ← decodeCommand_of_reserved hc]
    rfl
  | wrIllegal addr data =>
    have ha : isWritable addr = false := by simpa [Instr.wellFormed] using h
    rw [encode, decode_packTW_write, decodeWrite_of_illegal ha]
  | rdIllegal addr =>
    have ha : isReadable addr = false := by simpa [Instr.wellFormed] using h
    rw [encode, decode_packTW_read, decodeRead_of_illegal ha]
  | cmdInit | cmdDeinit | cmdStart | cmdStop | wrStatus | wrFreq | wrPhase => exact decode_packTW_write _ _
  | _ => exact decode_packTW_read _

/-! ## What a word decodes to -/

theorem decodeRead_wellFormed (a : Offset) : (decodeRead a).wellFormed = true := by
  cases h : isReadable a with
  | false => simp [decodeRead_of_illegal h, Instr.wellFormed, h]
  | true => obtain rfl | rfl | rfl | rfl | rfl | rfl | rfl | rfl | rfl | rfl := (isReadable_iff a).mp h <;> rfl

theorem decodeCommand_wellFormed (code : Word) : (decodeCommand code).wellFormed = true := by
  cases h : isCommandCode code with
  | false => simp [decodeCommand_of_reserved h, Instr.wellFormed, h]
  | true => obtain rfl | rfl | rfl | rfl := (isCommandCode_iff code).mp h <;> rfl

theorem decodeWrite_wellFormed (a : Offset) (d : Word) : (decodeWrite a d).wellFormed = true := by
  cases h : isWritable a with
  | false => simp [decodeWrite_of_illegal h, Instr.wellFormed, h]
  | true =>
    obtain rfl | rfl | rfl | rfl := (isWritable_iff a).mp h
    · exact decodeCommand_wellFormed d
    · rfl
    · rfl
    · rfl

theorem wellFormed_of_decode_ok {w : TW} {i : Instr} (h : decode w = .ok i) : i.wellFormed = true := by
  obtain ⟨-, ⟨-, -, -, rfl⟩ | ⟨-, -, -, rfl⟩ | ⟨-, -, rfl⟩ | ⟨-, rfl⟩⟩ := decode_ok_cases h
  · rfl
  · rfl
  · exact decodeRead_wellFormed _
  · exact decodeWrite_wellFormed _ _

end Sys2Proof

namespace Sys2Proof.Machine

/-- Settles O2: under a legal configuration a step runs the word at the head, and is idle where there is none. -/
theorem stepRunsTheDecodedHeadOfTheStream : Obligations.StepRunsTheDecodedHeadOfTheStream :=
  ⟨fun _ _ _ _ hc he hd => ⟨wellFormed_of_decode_ok hd, step_of_decode_ok hc he hd⟩, fun _ => step_of_nil⟩

end Sys2Proof.Machine
end

section
/-! Runs of the machine: from the invariant no run faults (O13), and a run over the words of some events is those events
(O14). -/

namespace Sys2Proof.Machine

/-! ## A run, by its first step -/

theorem run_succ_of_next {s t : State} (n : Nat) (h : step s = .next t) :
    Host.Core.run core (n + 1) s = Host.Core.run core n t := by
  simp [Host.Core.run, core, h]

theorem run_succ_of_fault {s : State} {r : Fault} (n : Nat) (h : step s = .fault r) :
    Host.Core.run core (n + 1) s = .fault r := by
  simp [Host.Core.run, core, h]

theorem run_succ_of_refused {s : State} {r : Refusal} (n : Nat) (h : step s = .refused r) :
    Host.Core.run core (n + 1) s = .refused r := by
  simp [Host.Core.run, core, h]

/-! ## No fault from the invariant -/

/-- Under the invariant both samples of a TICK exist (20_memory.md R51). -/
theorem execTick_completes_of_inv {s : State} (hs : s.Inv) : ∃ t, execTick s = .next t := by
  obtain ⟨hc, ⟨hacc, -⟩, -⟩ := hs
  obtain ⟨-, hw, -⟩ := (legal_iff s.cfg).mp hc
  obtain ⟨va, ha⟩ := sample_isSome hc hacc
  obtain ⟨vb, hb⟩ := sample_isSome hc (phaseAdd_lt hw s.acc s.off)
  cases hl : s.life with
  | uninit => exact ⟨s, by simp [execTick, hl]⟩
  | stopped => exact ⟨s, by simp [execTick, hl]⟩
  | running => exact ⟨_, by rw [execTick, hl, produceSamples_of_samples ha hb]⟩

theorem exec_completes_of_inv {s : State} (hs : s.Inv) (i : Instr) : ∃ t, exec i s = .next t := by
  by_cases hi : i = .tick
  · subst hi
    exact execTick_completes_of_inv hs
  · exact exec_completes_of_ne_tick hi s

theorem step_ne_fault_of_inv {s : State} (hs : s.Inv) (r : Fault) : step s ≠ .fault r := by
  cases he : s.events with
  | nil => simp [step_of_nil hs.1 he]
  | cons w rest =>
    cases hd : decode w with
    | error e => simp [step_of_decode_error hs.1 he hd]
    | ok i =>
      obtain ⟨t, ht⟩ := exec_completes_of_inv (s := { s with events := rest }) hs i
      simp [step_of_decode_ok hs.1 he hd, ht]

/-- Settles O13, by induction on the number of steps: no step from the invariant faults, and every step keeps it. -/
theorem runsNeverFault : Obligations.RunsNeverFault := by
  intro n
  induction n with
  | zero => intro s r _; simp [Host.Core.run]
  | succ n ih =>
    intro s r hs
    cases h : step s with
    | next t =>
      rw [run_succ_of_next n h]
      exact ih t r (stepKeepsTheStateInvariant s t hs h)
    | fault r' => exact absurd h (step_ne_fault_of_inv hs r')
    | refused r' => simp [run_succ_of_refused n h]

/-! ## No event looks at the stream -/

/-- The state with another stream. -/
def setEvents (ws : List TW) (s : State) : State := { s with events := ws }

/-- The outcome with its next state mapped. -/
def mapNext (f : State → State) : Result → Result
  | .next s => .next (f s)
  | .fault r => .fault r
  | .refused r => .refused r

@[simp] theorem setEvents_cfg (ws : List TW) (s : State) : (setEvents ws s).cfg = s.cfg := rfl
@[simp] theorem setEvents_acc (ws : List TW) (s : State) : (setEvents ws s).acc = s.acc := rfl
@[simp] theorem setEvents_off (ws : List TW) (s : State) : (setEvents ws s).off = s.off := rfl
@[simp] theorem setEvents_life (ws : List TW) (s : State) : (setEvents ws s).life = s.life := rfl

theorem raise_setEvents (ws : List TW) (e : ErrorCode) (s : State) :
    raise e (setEvents ws s) = setEvents ws (raise e s) := by
  cases e <;> rfl

theorem ifInitialised_setEvents {ws : List TW} {s t t' : State} (h : t' = setEvents ws t) :
    ifInitialised (setEvents ws s) t' = setEvents ws (ifInitialised s t) := by
  by_cases hl : s.life = .uninit
  · simp [hl, raise_setEvents]
  · rw [ifInitialised_of_ne_uninit t hl, ifInitialised_of_ne_uninit (s := setEvents ws s) t' hl, h]

theorem produceSamples_setEvents (ws : List TW) (s : State) :
    produceSamples (setEvents ws s) = mapNext (setEvents ws) (produceSamples s) := by
  simp only [produceSamples, setEvents_cfg, setEvents_acc, setEvents_off]
  split <;> rfl

theorem execTick_setEvents (ws : List TW) (s : State) :
    execTick (setEvents ws s) = mapNext (setEvents ws) (execTick s) := by
  cases hl : s.life with
  | uninit | stopped => simp [execTick, mapNext, hl]
  | running => simp [execTick, hl, produceSamples_setEvents]

theorem execCmdInit_setEvents (ws : List TW) (s : State) :
    execCmdInit (setEvents ws s) = mapNext (setEvents ws) (execCmdInit s) := by
  cases hl : s.life with
  | uninit =>
    simp only [execCmdInit, setEvents_life, hl]
    rfl
  | stopped | running => simp [execCmdInit, mapNext, hl, raise_setEvents]

/-- An event does with one stream to come what it does with another. -/
theorem exec_setEvents (ws : List TW) (i : Instr) (s : State) :
    exec i (setEvents ws s) = mapNext (setEvents ws) (exec i s) := by
  cases i with
  | tick => exact execTick_setEvents ws s
  | cmdInit => exact execCmdInit_setEvents ws s
  | cmdStart | cmdStop | wrFreq | wrPhase | rdFreq | rdPhase | rdInc | rdOffset | rdAcc | rdFreqAch =>
    exact congrArg Host.Outcome.next (ifInitialised_setEvents (by rfl))
  | _ => rfl

theorem cfg_of_exec {i : Instr} {s t : State} (h : exec i s = .next t) : t.cfg = s.cfg := by
  cases effect_of_exec h <;> simp

/-! ## The run over the words of some events -/

/-- Settles O14, by induction on the events: the step decodes the head's word back to the event, which neither looks at the
stream nor writes it. -/
theorem runOfAStreamRunsItsEvents : Obligations.RunOfAStreamRunsItsEvents := by
  intro es rest
  induction es with
  | nil =>
    rintro s - - rfl
    rfl
  | cons i es ih =>
    intro s hc hwf he
    obtain ⟨hi, hes⟩ := List.forall_mem_cons.mp hwf
    have hstep : step s = mapNext (setEvents (es.map encode ++ rest)) (exec i s) := by
      rw [← exec_setEvents]
      exact step_of_decode_ok hc he (decode_encode hi)
    have hexec : exec i { s with events := rest } = mapNext (setEvents rest) (exec i s) := exec_setEvents rest i s
    cases hx : exec i s with
    | next t =>
      rw [hx] at hstep hexec
      rw [execAll_cons_of_next hexec, List.length_cons, run_succ_of_next _ hstep]
      exact ih (setEvents _ t) ((cfg_of_exec hx).symm ▸ hc) hes rfl
    | fault r =>
      rw [hx] at hstep hexec
      rw [execAll, hexec]
      exact run_succ_of_fault _ hstep
    | refused r => exact absurd hx (exec_ne_refused i s r)

end Sys2Proof.Machine
end

section
/-! Ordering of control writes (20_memory.md sections 2 and 3): repeating an event (O46), and the order of WR_FREQ and
WR_PHASE (O47). -/

namespace Sys2Proof.Machine

/-! ## CMD_INIT, WR_FREQ and WR_PHASE by LIFE -/

theorem exec_cmdInit_of_uninit {s : State} (hl : s.life = .uninit) : exec .cmdInit s =
    .next (respond .ok 0 (setLife .stopped
      (loadPhase (phaseOperand s.cfg.initPhase) (loadFreq (freqOperand s.cfg.initFreq) { s with acc := 0 })))) := by
  simp [exec, execCmdInit, hl]

theorem exec_cmdInit_of_initialised {s : State} (hl : s.life ≠ .uninit) : exec .cmdInit s = .next (raise .state s) := by
  cases h : s.life with
  | uninit => exact absurd h hl
  | stopped | running => simp [exec, execCmdInit, h]

theorem exec_wrFreq_of_uninit {s : State} (hl : s.life = .uninit) (c : Word) :
    exec (.wrFreq c) s = .next (raise .notInit s) :=
  congrArg _ (ifInitialised_of_uninit _ hl)

theorem exec_wrFreq_of_initialised {s : State} (hl : s.life ≠ .uninit) (c : Word) :
    exec (.wrFreq c) s = .next (respond .ok 0 (loadFreq (freqOperand c) s)) :=
  congrArg _ (ifInitialised_of_ne_uninit _ hl)

theorem exec_wrPhase_of_uninit {s : State} (hl : s.life = .uninit) (d : Word) :
    exec (.wrPhase d) s = .next (raise .notInit s) :=
  congrArg _ (ifInitialised_of_uninit _ hl)

theorem exec_wrPhase_of_initialised {s : State} (hl : s.life ≠ .uninit) (d : Word) :
    exec (.wrPhase d) s = .next (respond .ok 0 (loadPhase (phaseOperand d) s)) :=
  congrArg _ (ifInitialised_of_ne_uninit _ hl)

/-! ## Repeating an event -/

/-- Doing `f` twice leaves the state of doing it once, but for the trace. -/
def Repeats (f : State → State) : Prop := ∀ s, f (f s) = { f s with trace := (f (f s)).trace }

theorem raise_repeats (e : ErrorCode) : Repeats (raise e) := by
  intro s
  cases e <;> rfl

theorem clearErrors_repeats (m : BitVec 4) : Repeats fun s => respond .ok 0 (clearErrors m s) := by
  intro s
  simp [respond, clearErrors]

/-- The lifecycle gate before an operation that does not lead back to UNINIT. -/
theorem gate_repeats {f : State → State} (hf : Repeats f) (hl : ∀ s, s.life ≠ .uninit → (f s).life ≠ .uninit) :
    Repeats fun s => ifInitialised s (f s) := by
  intro s
  by_cases h : s.life = .uninit
  · simpa [h] using raise_repeats .notInit s
  · simpa [h, hl s h] using hf s

/-- Every event but TICK and CMD_INIT is an operation that repeats. -/
theorem exec_repeats {i : Instr} (ht : i ≠ .tick) (hi : i ≠ .cmdInit) :
    ∃ f : State → State, (∀ s, exec i s = .next (f s)) ∧ Repeats f := by
  cases i with
  | tick => exact absurd rfl ht
  | cmdInit => exact absurd rfl hi
  | wrStatus d => exact ⟨_, fun _ => rfl, clearErrors_repeats _⟩
  | cmdRsvd | wrIllegal | rdIllegal => exact ⟨_, fun _ => rfl, raise_repeats _⟩
  | cmdStart | cmdStop => exact ⟨_, fun _ => rfl, gate_repeats (fun _ => rfl) (by simp)⟩
  | wrFreq | wrPhase | rdFreq | rdPhase | rdInc | rdOffset | rdAcc | rdFreqAch =>
    exact ⟨_, fun _ => rfl, gate_repeats (fun _ => rfl) fun _ h => h⟩
  | reset | cmdDeinit | rdStatus | rdConfig | rdTableSize | rdSampleRate => exact ⟨_, fun _ => rfl, fun _ => rfl⟩

theorem initialised_after_cmdInit {s t : State} (h : exec .cmdInit s = .next t) : t.life ≠ .uninit := by
  by_cases hl : s.life = .uninit
  · rw [exec_cmdInit_of_uninit hl] at h
    cases h
    simp
  · rw [exec_cmdInit_of_initialised hl] at h
    cases h
    simpa using hl

/-- Settles O46: an event repeats unless it is a TICK or a CMD_INIT, and CMD_INIT leaves a block that refuses another. -/
theorem repeatingAnEventIsIdempotent : Obligations.RepeatingAnEventIsIdempotent := by
  refine ⟨fun i s t u hne hni ht hu => ?_, fun s t u ht hu => ?_⟩
  · obtain ⟨f, hf, hr⟩ := exec_repeats hne hni
    rw [hf] at ht hu
    cases ht
    cases hu
    exact hr s
  · rw [exec_cmdInit_of_initialised (initialised_after_cmdInit ht)] at hu
    cases hu
    exact raise_state_eq t

/-! ## WR_FREQ and WR_PHASE -/

/-- Settles O47: both raise E_NOTINIT in UNINIT, and elsewhere they write different elements. -/
theorem frequencyAndPhaseWritesCommute : Obligations.FrequencyAndPhaseWritesCommute := by
  intro s c d
  by_cases hl : s.life = .uninit
  · have hl' : (raise .notInit s).life = .uninit := by simpa using hl
    refine ⟨raise .notInit (raise .notInit s), ?_, ?_⟩
    · rw [execAll_cons_of_next (exec_wrFreq_of_uninit hl c), execAll_cons_of_next (exec_wrPhase_of_uninit hl' d),
        execAll_nil]
    · rw [execAll_cons_of_next (exec_wrPhase_of_uninit hl d), execAll_cons_of_next (exec_wrFreq_of_uninit hl' c),
        execAll_nil]
  · refine ⟨respond .ok 0 (loadPhase (phaseOperand d) (respond .ok 0 (loadFreq (freqOperand c) s))), ?_, ?_⟩
    · rw [execAll_cons_of_next (exec_wrFreq_of_initialised hl c),
        execAll_cons_of_next (exec_wrPhase_of_initialised (by simpa using hl) d), execAll_nil]
    · rw [execAll_cons_of_next (exec_wrPhase_of_initialised hl d),
        execAll_cons_of_next (exec_wrFreq_of_initialised (by simpa using hl) c)]
      rfl

end Sys2Proof.Machine
end

section
/-! The codec both ways: which words decode, that decoding and encoding undo each other, and the refusals by name; O6, O7,
O4 and O8. -/

namespace Sys2Proof

/-! ## Encoding what a word decodes to -/

theorem encode_decodeCommand (code : Word) : encode (decodeCommand code) = packTW kindWrite 0x00 code := by
  cases h : isCommandCode code with
  | false => rw [decodeCommand_of_reserved h, encode]
  | true => obtain rfl | rfl | rfl | rfl := (isCommandCode_iff code).mp h <;> rfl

theorem encode_decodeWrite (a : Offset) (d : Word) : encode (decodeWrite a d) = packTW kindWrite a d := by
  cases h : isWritable a with
  | false => rw [decodeWrite_of_illegal h, encode]
  | true =>
    obtain rfl | rfl | rfl | rfl := (isWritable_iff a).mp h
    · exact encode_decodeCommand d
    · rfl
    · rfl
    · rfl

theorem encode_decodeRead (a : Offset) : encode (decodeRead a) = packTW kindRead a 0 := by
  cases h : isReadable a with
  | false => rw [decodeRead_of_illegal h, encode]
  | true => obtain rfl | rfl | rfl | rfl | rfl | rfl | rfl | rfl | rfl | rfl := (isReadable_iff a).mp h <;> rfl

/-- Encoding undoes decoding: no field of a word that decodes is lost (30_encoding.md R80). -/
theorem encode_of_decode_ok {w : TW} {i : Instr} (h : decode w = .ok i) : encode i = w := by
  obtain ⟨hr, ⟨hk, ha, hd, rfl⟩ | ⟨hk, ha, hd, rfl⟩ | ⟨hk, hd, rfl⟩ | ⟨hk, rfl⟩⟩ := decode_ok_cases h
  · rw [← packTW_fields hr, hk, ha, hd, encode]
  · rw [← packTW_fields hr, hk, ha, hd, encode]
  · rw [encode_decodeRead, ← hk, ← hd, packTW_fields hr]
  · rw [encode_decodeWrite, ← hk, packTW_fields hr]

/-! ## Which words decode -/

/-- Every word the pseudocode of 30_encoding.md R76 does not refuse: a write, a read without data, a bare event. -/
theorem decode_ok_of_fields {w : TW} (hr : rsvOf w = 0)
    (h : kindOf w = kindWrite ∨ (kindOf w = kindRead ∧ dataOf w = 0) ∨ (addrOf w = 0 ∧ dataOf w = 0)) :
    ∃ i, decode w = .ok i := by
  obtain hk | ⟨hk, hd⟩ | ⟨ha, hd⟩ := h
  · exact ⟨_, decode_of_write hr hk⟩
  · exact ⟨_, decode_of_read hr hk hd⟩
  · obtain hk | hk | hk | hk := kind_cases (kindOf w)
    · exact ⟨_, decode_of_read hr hk hd⟩
    · exact ⟨_, decode_of_write hr hk⟩
    · exact ⟨_, decode_of_tick hr hk ha hd⟩
    · exact ⟨_, decode_of_reset hr hk ha hd⟩

/-- Settles O6: one constructor at a time, a fall-back row's operand being no other row's. -/
theorem decodeUndoesEncode : Obligations.DecodeUndoesEncode :=
  fun _ => decode_encode

/-- Settles O7: a word that decodes to an event is that event's encoding, hence the only one. -/
theorem eachEventHasOneWord : Obligations.EachEventHasOneWord :=
  ⟨fun _ _ h => ⟨wellFormed_of_decode_ok h, encode_of_decode_ok h⟩,
    fun i hi => ⟨encode i, decode_encode hi, fun _ h => (encode_of_decode_ok h).symm⟩⟩

/-- Settles O8: the nine words are closed, and the decoder is evaluated on each. -/
theorem wordsOfEachFamilyDecode : Obligations.WordsOfEachFamilyDecode := by
  unfold Obligations.WordsOfEachFamilyDecode
  decide

end Sys2Proof

namespace Sys2Proof.Machine

/-- Settles O4: the decoder refuses by the reason each clause names, or decodes, and the step answers accordingly. -/
theorem malformedWordsAreRefusedByNameAndOthersDecode :
    Obligations.MalformedWordsAreRefusedByNameAndOthersDecode := by
  intro s w rest hc he
  refine ⟨fun hr => ?_, fun hr hk hz => ?_, fun hr hk hd => ?_, fun hr hf => ?_⟩
  · exact step_of_decode_error hc he (decode_of_rsv hr)
  · exact step_of_decode_error hc he (decode_of_malformed_event hr hk hz)
  · exact step_of_decode_error hc he (decode_of_malformed_read hr hk hd)
  · obtain ⟨i, hi⟩ := decode_ok_of_fields hr hf
    exact ⟨i, hi, step_of_decode_ok hc he hi⟩

end Sys2Proof.Machine
end

section
/-! The second reading of 30_encoding.md R76: decoding by the masks of the opcode table; O5. -/

namespace Sys2Proof

/-! ## A word that matches a row, field by field -/

/-- Where a row's mask covers a whole field, a word that matches the row has the row's field. -/
theorem field_of_rowMatches {r : OpcodeRow} {w : TW} {start len : Nat} (h : rowMatches r w = true)
    (hm : r.mask.extractLsb' start len = BitVec.allOnes len) :
    w.extractLsb' start len = r.bits.extractLsb' start len := by
  rw [rowMatches, beq_iff_eq] at h
  rw [← h, BitVec.extractLsb'_and, hm, BitVec.and_allOnes]

/-- Two rows agree where both masks look, so that some word can match both. -/
def rowsOverlap (r r' : OpcodeRow) : Bool := r.bits &&& r'.mask == r'.bits &&& r.mask

theorem rowsOverlap_of_rowMatches {r r' : OpcodeRow} {w : TW} (h : rowMatches r w = true)
    (h' : rowMatches r' w = true) : rowsOverlap r r' = true := by
  rw [rowMatches, beq_iff_eq] at h h'
  rw [rowsOverlap, beq_iff_eq, ← h, ← h']
  ac_rfl

/-! ## Facts read off the table -/

/-- Rows of equal weight exclude each other. -/
theorem rowWeight_ne_of_overlap : ∀ r ∈ opcodeTable, ∀ r' ∈ opcodeTable, r ≠ r' → rowsOverlap r r' = true →
    rowWeight r ≠ rowWeight r' := by
  decide

/-- Only the three fall-back rows of 30_encoding.md R81 have an overlapping heavier row, and that row names an operand
which the fall-back row does not keep. -/
theorem fallback_of_heavier_overlap : ∀ r ∈ opcodeTable, ∀ r' ∈ opcodeTable, rowsOverlap r r' = true →
    rowWeight r < rowWeight r' →
      (r.mnemonic = "CMD_RSVD" ∧ dataOf r'.mask = BitVec.allOnes 32 ∧ isCommandCode (dataOf r'.bits) = true) ∨
      (r.mnemonic = "WR_ILLEGAL" ∧ addrOf r'.mask = BitVec.allOnes 8 ∧ isWritable (addrOf r'.bits) = true) ∨
      (r.mnemonic = "RD_ILLEGAL" ∧ addrOf r'.mask = BitVec.allOnes 8 ∧ isReadable (addrOf r'.bits) = true) := by
  decide

/-- Every row fixes KIND and RSV, and the fields R76 asks to be 0. -/
theorem fields_of_row : ∀ r ∈ opcodeTable,
    (rsvOf r.mask = BitVec.allOnes 22 ∧ rsvOf r.bits = 0) ∧ kindOf r.mask = BitVec.allOnes 2 ∧
      (kindOf r.bits = kindWrite ∨
        (dataOf r.mask = BitVec.allOnes 32 ∧ dataOf r.bits = 0 ∧
          (kindOf r.bits = kindRead ∨ (addrOf r.mask = BitVec.allOnes 8 ∧ addrOf r.bits = 0)))) := by
  decide

/-- No word matches two rows of equal weight. -/
theorem rowWeight_ne_of_rowMatches (w : TW) : ∀ r ∈ opcodeTable, ∀ r' ∈ opcodeTable, r ≠ r' → rowMatches r w = true →
    rowMatches r' w = true → rowWeight r ≠ rowWeight r' :=
  fun r hr r' hr' hne h h' => rowWeight_ne_of_overlap r hr r' hr' hne (rowsOverlap_of_rowMatches h h')

/-! ## A word that matches a row decodes -/

theorem decode_ok_of_rowMatches {r : OpcodeRow} (hr : r ∈ opcodeTable) {w : TW} (h : rowMatches r w = true) :
    ∃ i, decode w = .ok i := by
  obtain ⟨⟨hrsv, hrsv0⟩, hkind, hzero⟩ := fields_of_row r hr
  have hrw : rsvOf w = 0 := (field_of_rowMatches h hrsv).trans hrsv0
  have hkw : kindOf w = kindOf r.bits := field_of_rowMatches h hkind
  apply decode_ok_of_fields hrw
  obtain hk | ⟨hdata, hdata0, hk⟩ := hzero
  · exact .inl (hkw.trans hk)
  · have hdw : dataOf w = 0 := (field_of_rowMatches h hdata).trans hdata0
    obtain hk | ⟨haddr, haddr0⟩ := hk
    · exact .inr (.inl ⟨hkw.trans hk, hdw⟩)
    · exact .inr (.inr ⟨(field_of_rowMatches h haddr).trans haddr0, hdw⟩)

/-! ## The row of the event a word decodes to -/

theorem encodedInRow (i : Instr) : Laws.EncodedInRow.Statement i := by
  cases i with
  | tick => exact Laws.EncodedInRow.tick
  | reset => exact Laws.EncodedInRow.reset
  | cmdInit => exact Laws.EncodedInRow.cmdInit
  | cmdDeinit => exact Laws.EncodedInRow.cmdDeinit
  | cmdStart => exact Laws.EncodedInRow.cmdStart
  | cmdStop => exact Laws.EncodedInRow.cmdStop
  | cmdRsvd code => exact Laws.EncodedInRow.cmdRsvd code
  | wrStatus data => exact Laws.EncodedInRow.wrStatus data
  | wrFreq data => exact Laws.EncodedInRow.wrFreq data
  | wrPhase data => exact Laws.EncodedInRow.wrPhase data
  | wrIllegal addr data => exact Laws.EncodedInRow.wrIllegal addr data
  | rdStatus => exact Laws.EncodedInRow.rdStatus
  | rdFreq => exact Laws.EncodedInRow.rdFreq
  | rdPhase => exact Laws.EncodedInRow.rdPhase
  | rdInc => exact Laws.EncodedInRow.rdInc
  | rdOffset => exact Laws.EncodedInRow.rdOffset
  | rdAcc => exact Laws.EncodedInRow.rdAcc
  | rdFreqAch => exact Laws.EncodedInRow.rdFreqAch
  | rdConfig => exact Laws.EncodedInRow.rdConfig
  | rdTableSize => exact Laws.EncodedInRow.rdTableSize
  | rdSampleRate => exact Laws.EncodedInRow.rdSampleRate
  | rdIllegal addr => exact Laws.EncodedInRow.rdIllegal addr

theorem row_of_decode_ok {w : TW} {i : Instr} (h : decode w = .ok i) :
    ∃ r ∈ opcodeTable, r.mnemonic = mnemonicOf i ∧ rowMatches r w = true := by
  simpa only [Laws.EncodedInRow.Statement, encode_of_decode_ok h] using encodedInRow i

theorem data_reserved_of_cmdRsvd {w : TW} {i : Instr} (h : decode w = .ok i) (hm : mnemonicOf i = "CMD_RSVD") :
    isCommandCode (dataOf w) = false := by
  have hwf := wellFormed_of_decode_ok h
  cases i with
  | cmdRsvd code => simpa [← encode_of_decode_ok h, encode, Instr.wellFormed] using hwf
  | _ => simp [mnemonicOf] at hm

theorem addr_not_writable_of_wrIllegal {w : TW} {i : Instr} (h : decode w = .ok i) (hm : mnemonicOf i = "WR_ILLEGAL") :
    isWritable (addrOf w) = false := by
  have hwf := wellFormed_of_decode_ok h
  cases i with
  | wrIllegal addr data => simpa [← encode_of_decode_ok h, encode, Instr.wellFormed] using hwf
  | _ => simp [mnemonicOf] at hm

theorem addr_not_readable_of_rdIllegal {w : TW} {i : Instr} (h : decode w = .ok i) (hm : mnemonicOf i = "RD_ILLEGAL") :
    isReadable (addrOf w) = false := by
  have hwf := wellFormed_of_decode_ok h
  cases i with
  | rdIllegal addr => simpa [← encode_of_decode_ok h, encode, Instr.wellFormed] using hwf
  | _ => simp [mnemonicOf] at hm

/-- No row the word matches is heavier than its event's own: a fall-back event keeps no operand of a heavier row. -/
theorem rowWeight_le_of_decode_ok {w : TW} {i : Instr} {r r' : OpcodeRow} (hd : decode w = .ok i)
    (hr : r ∈ opcodeTable) (hi : r.mnemonic = mnemonicOf i) (h : rowMatches r w = true)
    (hr' : r' ∈ opcodeTable) (h' : rowMatches r' w = true) : rowWeight r' ≤ rowWeight r := by
  by_contra hlt
  obtain ⟨hm, hmask, hop⟩ | ⟨hm, hmask, hop⟩ | ⟨hm, hmask, hop⟩ :=
    fallback_of_heavier_overlap r hr r' hr' (rowsOverlap_of_rowMatches h h') (not_le.mp hlt)
  · have hw : dataOf w = dataOf r'.bits := field_of_rowMatches h' hmask
    simp [← hw, data_reserved_of_cmdRsvd hd (hi ▸ hm)] at hop
  · have hw : addrOf w = addrOf r'.bits := field_of_rowMatches h' hmask
    simp [← hw, addr_not_writable_of_wrIllegal hd (hi ▸ hm)] at hop
  · have hw : addrOf w = addrOf r'.bits := field_of_rowMatches h' hmask
    simp [← hw, addr_not_readable_of_rdIllegal hd (hi ▸ hm)] at hop

/-- Settles O5: the row of the decoded event matches and no matching row is heavier; equal weights exclude each other. -/
theorem decodingTakesTheHeaviestMatchingRow : Obligations.DecodingTakesTheHeaviestMatchingRow := by
  refine ⟨fun w i hd => ?_, fun w => ⟨?_, fun hno => ?_⟩, rowWeight_ne_of_rowMatches⟩
  · obtain ⟨r, hr, hi, h⟩ := row_of_decode_ok hd
    exact ⟨r, hr, hi, h, fun r' hr' hne h' =>
      lt_of_le_of_ne (rowWeight_le_of_decode_ok hd hr hi h hr' h') (rowWeight_ne_of_rowMatches w r' hr' r hr hne h' h)⟩
  · rintro ⟨e, he⟩ r hr
    by_contra h
    obtain ⟨i, hi⟩ := decode_ok_of_rowMatches hr (eq_true_of_ne_false h)
    simp [hi] at he
  · cases hd : decode w with
    | error e => exact ⟨e, rfl⟩
    | ok i =>
      obtain ⟨r, hr, -, h⟩ := row_of_decode_ok hd
      simp [hno r hr] at h

end Sys2Proof
end

section
/-! The assembler's forms (30_encoding.md R82, R83): what the pseudo-instructions expand to, and that every word of a form
decodes; O48 and O49. -/

namespace Sys2Proof

/-! ## Operands -/

/-- A scaled operand is a number exactly when the scaled ratio is that integer (R83). -/
theorem asmScaled_eq_some_iff {x : Ratio} (hx : 0 < x.den) (scale v : Int) :
    asmScaled x scale = some v ↔ x.num * scale = v * x.den := by
  have hden : (x.den : Int) ≠ 0 := by omega
  simp only [asmScaled, ne_eq, hx.ne', not_false_eq_true, true_and, Option.ite_none_right_eq_some, Option.some.injEq]
  constructor
  · rintro ⟨hmod, rfl⟩
    exact (Int.ediv_mul_cancel (Int.dvd_of_emod_eq_zero hmod)).symm
  · intro h
    rw [h]
    exact ⟨Int.mul_emod_left v _, Int.mul_ediv_cancel v hden⟩

theorem asmFreq_of_scaled {hz : Ratio} {v : Int} (h : asmScaled hz 256 = some v) (h0 : 0 ≤ v) (h1 : v < 2 ^ 32) :
    asmFreq hz = asmImm v := by
  rw [asmFreq, h, asmImm, if_pos (by omega)]
  exact if_pos ⟨h0, h1⟩

theorem asmPhase_of_scaled {deg : Ratio} {v : Int} (h : asmScaled deg 65536 = some v) (h0 : -2 ^ 31 ≤ v)
    (h1 : v < 2 ^ 31) : asmPhase deg = asmImm v := by
  rw [asmPhase, h, asmImm, if_pos (by omega)]
  exact if_pos ⟨h0, h1⟩

theorem asmFreq_eq_none {hz : Ratio} (h : ∀ v, asmScaled hz 256 = some v → ¬(0 ≤ v ∧ v < 2 ^ 32)) :
    asmFreq hz = none := by
  rw [asmFreq]
  cases hs : asmScaled hz 256 with
  | none => rfl
  | some v => exact if_neg (h v hs)

theorem asmPhase_eq_none {deg : Ratio} (h : ∀ v, asmScaled deg 65536 = some v → ¬(-2 ^ 31 ≤ v ∧ v < 2 ^ 31)) :
    asmPhase deg = none := by
  rw [asmPhase]
  cases hs : asmScaled deg 65536 with
  | none => rfl
  | some v => exact if_neg (h v hs)

/-! ## Pseudo-instructions -/

/-- Settles O48: the fixed expansions are evaluated; a scaled operand is its integer where there is one in range. -/
theorem pseudoInstructionsExpandAsListed : Obligations.PseudoInstructionsExpandAsListed := by
  refine ⟨rfl, rfl, rfl, rfl, rfl, rfl, rfl, fun _ => rfl, ?_, ?_, ?_, ?_⟩
  · exact fun hz v hden hv h0 h1 =>
      congrArg (asmWrite _) (asmFreq_of_scaled ((asmScaled_eq_some_iff hden _ v).mpr hv) h0 h1)
  · exact fun hz hden hno => congrArg (asmWrite _)
      (asmFreq_eq_none fun v hv hr => hno ⟨v, (asmScaled_eq_some_iff hden _ v).mp hv, hr⟩)
  · exact fun deg v hden hv h0 h1 =>
      congrArg (asmWrite _) (asmPhase_of_scaled ((asmScaled_eq_some_iff hden _ v).mpr hv) h0 h1)
  · exact fun deg hden hno => congrArg (asmWrite _)
      (asmPhase_eq_none fun v hv hr => hno ⟨v, (asmScaled_eq_some_iff hden _ v).mp hv, hr⟩)

/-! ## Every assembled word decodes -/

theorem decode_ok_of_mem_singleton {w w' : TW} {i : Instr} (h : decode w = .ok i) {ws : List TW}
    (ha : some [w] = some ws) (hm : w' ∈ ws) : ∃ i, decode w' = .ok i := by
  cases ha
  rw [List.mem_singleton.mp hm]
  exact ⟨i, h⟩

theorem decode_ok_of_mem_asmWrite {a : Offset} {d : Option Word} {ws : List TW} {w : TW}
    (ha : asmWrite a d = some ws) (hm : w ∈ ws) : ∃ i, decode w = .ok i := by
  cases d with
  | none => cases ha
  | some d => exact decode_ok_of_mem_singleton (decode_packTW_write a d) ha hm

/-- Settles O49: a form assembles to reads, writes, TICKs or a RESET, each of which decodes. -/
theorem assembledWordsDecode : Obligations.AssembledWordsDecode := by
  intro a ws ha w hw
  cases a with
  | tick => exact decode_ok_of_mem_singleton (decode_encode (i := .tick) rfl) ha hw
  | reset => exact decode_ok_of_mem_singleton (decode_encode (i := .reset) rfl) ha hw
  | rd | getFreq | getPhase => exact decode_ok_of_mem_singleton (decode_packTW_read _) ha hw
  | rdAt off =>
    rw [assemble] at ha
    cases ho : asmOffset off with
    | none => simp [ho] at ha
    | some a => exact decode_ok_of_mem_singleton (decode_packTW_read a) (by simpa [ho] using ha) hw
  | wrAt off imm =>
    rw [assemble] at ha
    cases ho : asmOffset off with
    | none => simp [ho] at ha
    | some a => exact decode_ok_of_mem_asmWrite (a := a) (by simpa [ho] using ha) hw
  | init | deinit | start | stop | clrErr => exact decode_ok_of_mem_singleton (decode_packTW_write _ _) ha hw
  | wr | setFreq | setPhase => exact decode_ok_of_mem_asmWrite ha hw
  | ticks n =>
    cases ha
    rw [List.eq_of_mem_replicate hw]
    exact ⟨.tick, decode_encode (i := .tick) rfl⟩

end Sys2Proof
end

section
/-! The waveform table and the angle (40_table_and_angle.md): the bounds of the interpolated value (R109; O20), Decompose as
bit slicing (R105; O19) and the sample of a phase word (R104, R106, R107; O18). -/

namespace Sys2Proof.Machine

/-! ## The floored term of the blend

`d` is the difference of the entries, `f` the weight and `m` the phase modulus: the weight lies in [0, m). -/

section
variable {d f m : Int}

theorem min_le_mul_ediv (h0 : 0 ≤ f) (hm : f < m) : min d 0 ≤ d * f / m := by
  rw [Int.le_ediv_iff_mul_le (h0.trans_lt hm)]
  rcases le_total d 0 with hd | hd
  · rw [min_eq_left hd]
    exact mul_le_mul_of_nonpos_left hm.le hd
  · rw [min_eq_right hd, zero_mul]
    exact mul_nonneg hd h0

/-- A rising term never reaches the whole difference. -/
theorem mul_ediv_lt_of_pos (h0 : 0 ≤ f) (hm : f < m) (hd : 0 < d) : d * f / m < d := by
  rw [Int.ediv_lt_iff_lt_mul (h0.trans_lt hm)]
  exact mul_lt_mul_of_pos_left hm hd

theorem mul_ediv_le_max (h0 : 0 ≤ f) (hm : f < m) : d * f / m ≤ max d 0 := by
  rcases lt_or_ge 0 d with hd | hd
  · exact (mul_ediv_lt_of_pos h0 hm hd).le.trans (le_max_left d 0)
  · exact (Int.ediv_nonpos_of_nonpos_of_neg (mul_nonpos_of_nonpos_of_nonneg hd h0) (h0.trans_lt hm)).trans
      (le_max_right d 0)

/-- A falling term is the whole difference exactly when flooring takes it below `d + 1`. -/
theorem mul_ediv_eq_iff_of_neg (h0 : 0 ≤ f) (hm : f < m) (hd : d < 0) : d * f / m = d ↔ d * f < (d + 1) * m := by
  have hmin := min_le_mul_ediv (d := d) h0 hm
  rw [← Int.ediv_lt_iff_lt_mul (h0.trans_lt hm)]
  omega

end

/-! ## The interpolated value (R109) -/

section
variable {c : Config} {y0 y1 : Int} {frac : Nat}

theorem weight_lt_cast (h : frac < 2 ^ c.w) : (frac : Int) < 2 ^ c.w := by exact_mod_cast h

theorem min_le_blend (h : frac < 2 ^ c.w) : min y0 y1 ≤ blend c y0 y1 frac := by
  have ht := min_le_mul_ediv (d := y1 - y0) (Int.natCast_nonneg frac) (weight_lt_cast h)
  unfold blend
  omega

theorem blend_le_max (h : frac < 2 ^ c.w) : blend c y0 y1 frac ≤ max y0 y1 := by
  have ht := mul_ediv_le_max (d := y1 - y0) (Int.natCast_nonneg frac) (weight_lt_cast h)
  unfold blend
  omega

theorem blend_lt_of_rising (h : frac < 2 ^ c.w) (hy : y0 < y1) : blend c y0 y1 frac < y1 := by
  have ht := mul_ediv_lt_of_pos (d := y1 - y0) (Int.natCast_nonneg frac) (weight_lt_cast h) (by omega)
  unfold blend
  omega

theorem blend_eq_iff_of_falling (h : frac < 2 ^ c.w) (hy : y1 < y0) :
    blend c y0 y1 frac = y1 ↔ (y1 - y0) * frac < (y1 - y0 + 1) * 2 ^ c.w := by
  rw [← mul_ediv_eq_iff_of_neg (Int.natCast_nonneg frac) (weight_lt_cast h) (by omega)]
  unfold blend
  omega

theorem blend_of_falling_by_one (h : frac < 2 ^ c.w) (h0 : 0 < frac) (hy : y0 = y1 + 1) : blend c y0 y1 frac = y1 := by
  have hd : y1 - y0 = -1 := by omega
  rw [blend_eq_iff_of_falling h (by omega), hd]
  omega

theorem blend_of_rising_by_one (h : frac < 2 ^ c.w) (hy : y1 = y0 + 1) : blend c y0 y1 frac = y0 := by
  have hmin := min_le_blend (y0 := y0) (y1 := y1) h
  have hlt := blend_lt_of_rising (y0 := y0) (y1 := y1) h (by omega)
  omega

end

/-- Clamp is a no-op on the blend of A-bit entries (R108, R109). -/
theorem clampSample_blend {c : Config} {y0 y1 : Sample} {frac : Nat} (ha : c.a ≤ 16) (h0 : y0.toNat < 2 ^ c.a)
    (h1 : y1.toNat < 2 ^ c.a) (h : frac < 2 ^ c.w) :
    ((clampSample c (blend c y0.toNat y1.toNat frac)).toNat : Int) = blend c y0.toNat y1.toNat frac := by
  have hmin := min_le_blend (y0 := y0.toNat) (y1 := y1.toNat) h
  have hmax := blend_le_max (y0 := y0.toNat) (y1 := y1.toNat) h
  refine clampSample_of_range ha (by omega) (hmax.trans_lt (max_lt ?_ ?_))
  · exact_mod_cast h0
  · exact_mod_cast h1

/-- Settles O20: the floored term is bounded by the difference of the entries, and the blend is that term above y0. -/
theorem interpolatedValueLiesBetweenTheEntries : Obligations.InterpolatedValueLiesBetweenTheEntries := by
  intro c y0 y1 frac hc h0 h1 h
  obtain ⟨-, -, -, -, -, ha, -⟩ := (legal_iff c).mp hc
  have hw := weight_lt_cast h
  have hf := Int.natCast_nonneg frac
  exact ⟨min_le_mul_ediv hf hw, mul_ediv_le_max hf hw, min_le_blend h, blend_le_max h, clampSample_blend ha h0 h1 h,
    fun hy => Int.le_sub_one_of_lt (blend_lt_of_rising h (by exact_mod_cast hy)),
    fun hy => blend_eq_iff_of_falling h (by exact_mod_cast hy),
    fun hy hpos => blend_of_falling_by_one h hpos (by exact_mod_cast hy),
    fun hy => blend_of_rising_by_one h (by exact_mod_cast hy)⟩

/-! ## Decompose as bit slicing (R105) -/

section
variable {c : Config} {k : Nat}

theorem phaseIndex_of_n_eq_two_pow (hn : c.n = 2 ^ k) (hk : k ≤ c.w) (p : Word) :
    phaseIndex c p = p.toNat / 2 ^ (c.w - k) := by
  rw [phaseIndex, hn, ← Nat.pow_sub_mul_pow 2 hk, Nat.mul_div_mul_right _ _ (Nat.two_pow_pos k)]

theorem phaseFrac_of_n_eq_two_pow (hn : c.n = 2 ^ k) (hk : k ≤ c.w) (p : Word) :
    phaseFrac c p = p.toNat % 2 ^ (c.w - k) * 2 ^ k := by
  rw [phaseFrac, hn, ← Nat.pow_sub_mul_pow 2 hk, Nat.mul_mod_mul_right]

end

section
variable {c : Config} {m : Nat}

theorem phaseIndex_of_n_eq_mul (hn : c.n = m * 2 ^ c.w) (p : Word) : phaseIndex c p = p.toNat * m := by
  rw [phaseIndex, hn, ← mul_assoc, Nat.mul_div_cancel _ (Nat.two_pow_pos c.w)]

theorem phaseFrac_of_n_eq_mul (hn : c.n = m * 2 ^ c.w) (p : Word) : phaseFrac c p = 0 := by
  rw [phaseFrac, hn, ← mul_assoc, Nat.mul_mod_left]

end

/-- The slices `p[15:8]` and `p[7:0]` of a 16-bit phase word. -/
theorem phase_slices {p : Word} (hp : p.toNat < 65536) :
    (p.extractLsb' 8 8).toNat = p.toNat / 2 ^ 8 ∧ (p.extractLsb' 0 8).toNat = p.toNat % 2 ^ 8 := by
  simp only [BitVec.extractLsb'_toNat, Nat.shiftRight_eq_div_pow]
  omega

/-- Settles O19: both moduli are powers of two and cancel; REF is the case K = 8, W = 16; K = W is the multiple 1. -/
theorem decomposeIsBitSlicingForPowersOfTwo : Obligations.DecomposeIsBitSlicingForPowersOfTwo := by
  refine ⟨fun c p k _ hn hk => ⟨phaseIndex_of_n_eq_two_pow hn hk p, phaseFrac_of_n_eq_two_pow hn hk p, ?_⟩,
    fun c p m hn => ⟨phaseFrac_of_n_eq_mul hn p, phaseIndex_of_n_eq_mul hn p⟩, fun p hp => ?_⟩
  · rintro rfl
    exact phaseFrac_of_n_eq_mul (m := 1) (by rw [hn, one_mul]) p
  · obtain ⟨hhigh, hlow⟩ := phase_slices hp
    have hn : Config.ref.n = 2 ^ 8 := rfl
    have hk : 8 ≤ Config.ref.w := by decide
    rw [hhigh, hlow]
    exact ⟨phaseIndex_of_n_eq_two_pow hn hk p, phaseFrac_of_n_eq_two_pow hn hk p⟩

/-! ## The sample of a phase word (R104, R106, R107) -/

/-- A ROM read at an index below N never fails (20_memory.md R51). -/
theorem romRead_of_legal {c : Config} (hc : c.legal = true) {i : Nat} (hi : i < c.n) :
    ∃ y, romRead c i = some y ∧ y.toNat < 2 ^ c.a := by
  obtain ⟨-, -, -, -, -, -, -, -, hlen, hfit⟩ := (legal_iff c).mp hc
  have hi' : i < c.table.length := hlen ▸ hi
  exact ⟨_, romRead_eq_some hi', hfit _ (List.getElem_mem hi')⟩

theorem scaledPhase_lt {c : Config} {p : Word} (hc : c.legal = true) (hp : p.toNat < 2 ^ c.w) :
    p.toNat * c.n < 2 ^ (c.w + 17) := by
  obtain ⟨-, -, -, hn, -⟩ := (legal_iff c).mp hc
  rw [pow_add]
  exact Nat.mul_lt_mul'' hp (by omega)

theorem abs_diff_mul_lt {a w x y f : Nat} (hx : x < 2 ^ a) (hy : y < 2 ^ a) (hf : f < 2 ^ w) :
    |((y : Int) - x) * f| < 2 ^ (a + w) := by
  have hx' : (x : Int) < 2 ^ a := by exact_mod_cast hx
  have hy' : (y : Int) < 2 ^ a := by exact_mod_cast hy
  have hf' : (f : Int) < 2 ^ w := by exact_mod_cast hf
  have hd : |(y : Int) - x| < 2 ^ a := abs_lt.mpr (by omega)
  rw [abs_mul, Nat.abs_cast, pow_add]
  exact mul_lt_mul'' hd hf' (abs_nonneg _) (Int.natCast_nonneg f)

section
variable {c : Config} {p : Word} {y0 y1 : Sample}

/-- Without interpolation the sample is the entry itself: Clamp does not change it. -/
theorem sample_of_not_interp (ha : c.a ≤ 16) (hi : c.interp = false) (h0 : romRead c (phaseIndex c p) = some y0)
    (hy : y0.toNat < 2 ^ c.a) : sample c p = some y0 := by
  have hclamp : clampSample c y0.toNat = y0 :=
    BitVec.eq_of_toNat_eq (by exact_mod_cast clampSample_of_range ha (Int.natCast_nonneg _) (by exact_mod_cast hy))
  simp [sample, hi, sampleNearest, h0, hclamp]

theorem sample_of_interp (hi : c.interp = true) (h0 : romRead c (phaseIndex c p) = some y0)
    (h1 : romRead c (nextIndex c (phaseIndex c p)) = some y1) :
    sample c p = some (clampSample c (blend c y0.toNat y1.toNat (phaseFrac c p))) := by
  simp [sample, hi, sampleLinear, h0, h1]

end

/-- Settles O18: both indices are below N, so both reads exist; then by INTERP, where Clamp changes neither value. -/
theorem sampleIsTheBlendOfNeighbouringEntries : Obligations.SampleIsTheBlendOfNeighbouringEntries := by
  intro c p hc hp
  obtain ⟨-, -, hn, -, -, ha, -⟩ := (legal_iff c).mp hc
  have hidx := phaseIndex_lt (c := c) (by omega) hp
  have hfrac := phaseFrac_lt c p
  obtain ⟨y0, h0, hy0⟩ := romRead_of_legal hc hidx
  obtain ⟨y1, h1, hy1⟩ := romRead_of_legal hc (nextIndex_lt (c := c) (by omega) (phaseIndex c p))
  have hprod := abs_diff_mul_lt hy0 hy1 hfrac
  refine ⟨scaledPhase_lt hc hp, Nat.le_sub_one_of_lt hidx, y0, y1, ?_⟩
  cases hi : c.interp with
  | false => exact ⟨y0, h0, h1, sample_of_not_interp ha hi h0 hy0, hprod, fun _ => rfl, nofun⟩
  | true =>
    exact ⟨_, h0, h1, sample_of_interp hi h0 h1, hprod, nofun, fun _ => clampSample_blend ha hy0 hy1 hfrac⟩

end Sys2Proof.Machine
end

section
/-! The conversions (41_conversion.md): the increment and its clamp (R127; O24), the quantisation of the frequency (R126;
O25) and of the phase (R128; O26). -/

namespace Sys2Proof.Machine

/-! ## Rounding half up: where it is at least 1, and where it is exact -/

theorem one_le_rhu_iff (a : Nat) {b : Nat} (hb : 0 < b) : 1 ≤ rhu a b ↔ b ≤ 2 * a := by
  rw [rhu, Nat.le_div_iff_mul_le (by omega)]
  omega

theorem rhu_mul_self (k : Nat) {b : Nat} (hb : 0 < b) : rhu (k * b) b = k := by
  have hk : 2 * (k * b) = 2 * b * k := by ring
  rw [rhu, hk, Nat.add_mul_div_left _ _ (by omega), Nat.div_eq_of_lt (by omega), Nat.zero_add]

/-! ## The increment and its clamp (R122, R127) -/

/-- At FMAX = SR × 128 the exact quotient is half the phase modulus. -/
theorem fmax_mul_phaseMod {c : Config} (hw : 1 ≤ c.w) : c.sr * 128 * 2 ^ c.w = 2 ^ (c.w - 1) * (c.sr * 256) := by
  rw [← mul_pow_sub_one (by omega : c.w ≠ 0) 2]
  ring

theorem rawInc_le {c : Config} (hc : c.legal = true) {f : Nat} (hf : f ≤ c.sr * 128) : rawInc c f ≤ 2 ^ (c.w - 1) := by
  obtain ⟨hw, -, -, -, -, -, hsr, -⟩ := (legal_iff c).mp hc
  refine rhu_le_of_le_mul (Nat.mul_pos hsr (by decide)) ?_
  calc f * 2 ^ c.w ≤ c.sr * 128 * 2 ^ c.w := Nat.mul_le_mul_right _ hf
    _ = 2 ^ (c.w - 1) * (c.sr * 256) := fmax_mul_phaseMod hw

/-- For a code at most FMAX only the lower clamp of R122 acts. -/
theorem freqToInc_eq_max {c : Config} (hc : c.legal = true) {f : Nat} (hf : f ≤ c.sr * 128) :
    freqToInc c f = max 1 (rawInc c f) := by
  obtain ⟨hw, -⟩ := (legal_iff c).mp hc
  have hraw := rawInc_le hc hf
  have hP : 2 * 2 ^ (c.w - 1) = 2 ^ c.w := mul_pow_sub_one (by omega) 2
  have hpos : 0 < 2 ^ (c.w - 1) := by positivity
  unfold freqToInc clampNat Config.phaseMod
  omega

/-- Settles O24: the rounded quotient of a code at most FMAX is at most that of FMAX, which is exactly 2^(W-1). -/
theorem upperIncrementClampIsNeverActive : Obligations.UpperIncrementClampIsNeverActive := by
  intro c f hc hf
  obtain ⟨hw, -, -, -, -, -, hsr, -⟩ := (legal_iff c).mp hc
  have hraw := rawInc_le hc hf
  have hinc := freqToInc_eq_max hc hf
  have hmax : rawInc c (c.sr * 128) = 2 ^ (c.w - 1) := by
    rw [rawInc, Config.phaseMod, fmax_mul_phaseMod hw]
    exact rhu_mul_self _ (Nat.mul_pos hsr (by decide))
  exact ⟨hraw, hinc ▸ max_le Nat.one_le_two_pow hraw, hinc, fmax_mul_phaseMod hw, hmax⟩

/-! ## The frequency error (R126) -/

section
variable {c : Config} {f : Nat}

/-- `raw` is at least 1 exactly from half a step on. -/
theorem one_le_rawInc_iff (hc : c.legal = true) : 1 ≤ rawInc c f ↔ c.sr * 256 ≤ 2 * (f * 2 ^ c.w) := by
  obtain ⟨-, -, -, -, -, -, hsr, -⟩ := (legal_iff c).mp hc
  exact one_le_rhu_iff _ (Nat.mul_pos hsr (by decide))

/-- The band starts at SR × 256 / (2 × N), rounded up (R121). -/
theorem fscale_le_of_fmin_le (hc : c.legal = true) (hf : c.fmin ≤ f) : c.sr * 256 ≤ 2 * (f * c.n) := by
  obtain ⟨-, -, hn, -⟩ := (legal_iff c).mp hc
  have hlt : c.sr * 256 + 2 * c.n - 1 < (f + 1) * (2 * c.n) :=
    (Nat.div_lt_iff_lt_mul (by omega)).mp (Nat.lt_succ_of_le hf)
  have hmul : (f + 1) * (2 * c.n) = 2 * (f * c.n) + 2 * c.n := by ring
  omega

theorem pos_of_fmin_le (hc : c.legal = true) (hf : c.fmin ≤ f) : 0 < f := by
  obtain ⟨-, -, -, -, -, -, hsr, -⟩ := (legal_iff c).mp hc
  have hscale := fscale_le_of_fmin_le hc hf
  refine Nat.pos_of_ne_zero fun h0 => ?_
  rw [h0] at hscale
  omega

/-- With N at most 2^W every code of the band reaches half a step. -/
theorem one_le_rawInc_of_n_le (hc : c.legal = true) (hf : c.fmin ≤ f) (hn : c.n ≤ 2 ^ c.w) : 1 ≤ rawInc c f := by
  refine (one_le_rawInc_iff hc).mpr ?_
  calc c.sr * 256 ≤ 2 * (f * c.n) := fscale_le_of_fmin_le hc hf
    _ ≤ 2 * (f * 2 ^ c.w) := Nat.mul_le_mul_left 2 (Nat.mul_le_mul_left f hn)

/-- Where the clamp leaves `raw` alone, the increment is off by what one rounding costs. -/
theorem two_mul_abs_freqToInc_sub_le (hc : c.legal = true) (hf : f ≤ c.fmax) (hraw : 1 ≤ rawInc c f) :
    2 * |((freqToInc c f * (c.sr * 256) : Nat) : Int) - ((f * 2 ^ c.w : Nat) : Int)| ≤ ((c.sr * 256 : Nat) : Int) := by
  obtain ⟨-, -, -, -, -, -, hsr, -⟩ := (legal_iff c).mp hc
  rw [freqToInc_eq_max hc hf, max_eq_right hraw]
  exact two_mul_abs_rhu_sub_le (f * 2 ^ c.w) (Nat.mul_pos hsr (by decide))

/-- FREQ_ACH adds the half unit of its own rounding (R123) to the increment's error. -/
theorem two_mul_abs_incToFreq_sub_le (hc : c.legal = true) (hf : f ≤ c.fmax) (hraw : 1 ≤ rawInc c f) :
    2 * |((incToFreq c (freqToInc c f) * 2 ^ c.w : Nat) : Int) - ((f * 2 ^ c.w : Nat) : Int)| ≤
      ((c.sr * 256 + 2 ^ c.w : Nat) : Int) := by
  have hinc := two_mul_abs_freqToInc_sub_le hc hf hraw
  have hach : 2 * |((incToFreq c (freqToInc c f) * 2 ^ c.w : Nat) : Int) - ((freqToInc c f * (c.sr * 256) : Nat) : Int)| ≤
      ((2 ^ c.w : Nat) : Int) := two_mul_abs_rhu_sub_le (freqToInc c f * (c.sr * 256)) (Nat.two_pow_pos c.w)
  have htri := abs_sub_le ((incToFreq c (freqToInc c f) * 2 ^ c.w : Nat) : Int)
    ((freqToInc c f * (c.sr * 256) : Nat) : Int) ((f * 2 ^ c.w : Nat) : Int)
  rw [Nat.cast_add]
  linarith

/-- Where `raw` is 0 the clamp makes the increment 1: more than the request, by less than one step. -/
theorem freqToInc_of_rawInc_eq_zero (hc : c.legal = true) (hmin : c.fmin ≤ f) (hmax : f ≤ c.fmax)
    (hraw : rawInc c f = 0) : 2 * (f * 2 ^ c.w) < c.sr * 256 ∧ freqToInc c f = 1 ∧
      0 < ((freqToInc c f * (c.sr * 256) : Nat) : Int) - ((f * 2 ^ c.w : Nat) : Int) ∧
      ((freqToInc c f * (c.sr * 256) : Nat) : Int) - ((f * 2 ^ c.w : Nat) : Int) < ((c.sr * 256 : Nat) : Int) := by
  have hhalf : ¬ c.sr * 256 ≤ 2 * (f * 2 ^ c.w) := by
    rw [← one_le_rawInc_iff hc]
    omega
  have hinc : freqToInc c f = 1 := by rw [freqToInc_eq_max hc hmax, hraw, max_eq_left (by decide)]
  have hpos : 0 < f * 2 ^ c.w := Nat.mul_pos (pos_of_fmin_le hc hmin) (Nat.two_pow_pos c.w)
  rw [hinc]
  omega

/-- One step bounds the error of every code of the band. -/
theorem abs_freqToInc_sub_le (hc : c.legal = true) (hmin : c.fmin ≤ f) (hmax : f ≤ c.fmax) :
    |((freqToInc c f * (c.sr * 256) : Nat) : Int) - ((f * 2 ^ c.w : Nat) : Int)| ≤ ((c.sr * 256 : Nat) : Int) := by
  obtain hraw | hraw := Nat.eq_zero_or_pos (rawInc c f)
  · obtain ⟨-, -, hpos, hlt⟩ := freqToInc_of_rawInc_eq_zero hc hmin hmax hraw
    exact (abs_of_pos hpos).le.trans hlt.le
  · have hhalf := two_mul_abs_freqToInc_sub_le hc hmax hraw
    have hnonneg := abs_nonneg (((freqToInc c f * (c.sr * 256) : Nat) : Int) - ((f * 2 ^ c.w : Nat) : Int))
    linarith

end

/-- A configuration with N = 16 above 2^W = 2: FMIN = 8000 is far below half a step (90_conflicts.md C7). -/
def coarseConfig : Config where
  w := 1
  n := 16
  a := 8
  sr := 1000
  interp := false
  table := List.replicate 16 0
  initFreq := 8000
  initPhase := 0

/-- Settles O25: the cases raw ≥ 1 and raw = 0, each by its own lemma; `coarseConfig` at its FMIN breaks the half-step
bound. -/
theorem frequencyQuantisationIsBounded : Obligations.FrequencyQuantisationIsBounded := by
  refine ⟨fun c f hc hmin hmax => ⟨fun hraw => ⟨?_, ?_⟩, ?_, ?_, ?_⟩, coarseConfig, 8000, by decide⟩
  · exact two_mul_abs_freqToInc_sub_le hc hmax hraw
  · exact two_mul_abs_incToFreq_sub_le hc hmax hraw
  · exact one_le_rawInc_of_n_le hc hmin
  · exact freqToInc_of_rawInc_eq_zero hc hmin hmax
  · exact abs_freqToInc_sub_le hc hmin hmax

/-! ## The phase error (R128) -/

theorem rhu_normPhase_le (c : Config) (d : Int) : rhu (normPhase d * c.phaseMod) Config.deg360 ≤ c.phaseMod := by
  refine rhu_le_of_le_mul (by decide) ?_
  rw [Nat.mul_comm]
  exact Nat.mul_le_mul_left _ (normPhase_lt d).le

/-- The offset falls short of the rounded quotient by a whole turn or by none, so around the circle the error is what one
rounding costs. -/
theorem phaseToOff_error_le (c : Config) (d : Int) : ∃ k : Int, (k = 0 ∨ k = 1) ∧
    2 * |(phaseToOff c (normPhase d) : Int) * 23592960 + k * 23592960 * (2 ^ c.w : Int)
      - (normPhase d : Int) * (2 ^ c.w : Int)| ≤ 23592960 := by
  have hround := two_mul_abs_rhu_sub_le (normPhase d * c.phaseMod) (b := Config.deg360) (by decide)
  have hturn : rhu (normPhase d * c.phaseMod) Config.deg360 / c.phaseMod ≤ 1 :=
    Nat.div_le_of_le_mul (by simpa using rhu_normPhase_le c d)
  have hsplit : phaseToOff c (normPhase d) + c.phaseMod * (rhu (normPhase d * c.phaseMod) Config.deg360 / c.phaseMod) =
      rhu (normPhase d * c.phaseMod) Config.deg360 := Nat.mod_add_div _ _
  generalize rhu (normPhase d * c.phaseMod) Config.deg360 / c.phaseMod = k at hturn hsplit
  refine ⟨k, by omega, ?_⟩
  rw [← hsplit] at hround
  have hcast : ((((phaseToOff c (normPhase d) + c.phaseMod * k) * Config.deg360 : Nat) : Int) -
      ((normPhase d * c.phaseMod : Nat) : Int)) = (phaseToOff c (normPhase d) : Int) * 23592960 +
        k * 23592960 * (2 ^ c.w : Int) - (normPhase d : Int) * (2 ^ c.w : Int) := by
    push_cast [Config.phaseMod, Config.deg360]
    ring
  rw [← hcast]
  exact hround

theorem exec_rdPhase_of_initialised {s : State} (hl : s.life ≠ .uninit) :
    exec .rdPhase s = .next { s with trace := s.trace ++ [.response .ok s.phaseReq] } :=
  congrArg _ (ifInitialised_of_ne_uninit _ hl)

/-- Settles O26: OFF is one rounding away from the request, and PHASE_REQ holds the normalised request whole. -/
theorem phaseQuantisationIsBounded : Obligations.PhaseQuantisationIsBounded := by
  refine ⟨fun c d _ => phaseToOff_error_le c d.toInt, fun s t d hl h => ?_⟩
  cases (exec_wrPhase_of_initialised hl d).symm.trans h
  refine ⟨BitVec.ofNat 32 (normPhase d.toInt), ?_, ?_⟩
  · rw [toNat_normPhase, normPhase_cast]
  · exact exec_rdPhase_of_initialised (s := respond .ok 0 (loadPhase (phaseOperand d) s)) hl

end Sys2Proof.Machine
end

section
/-! Cycle closure (41_conversion.md R129): the state after any number of TICKs of a running block, and the least number
after which ACC is back where it was; O22. -/

namespace Sys2Proof.Machine

/-! ## A run of TICKs in RUNNING -/

/-- What a TICK of a running block needs in order to produce samples; every such TICK keeps it. -/
structure Producing (s : State) : Prop where
  legal : s.cfg.legal = true
  acc_lt : s.acc.toNat < 2 ^ s.cfg.w
  life : s.life = .running

/-- `t` is the running block `s` after `n` TICKs, as far as the later phases go: ACC has advanced by n × INC mod 2^W
(42_tick.md R145), and what governs the ticks to come is unchanged. -/
structure TickedBy (n : Nat) (s t : State) : Prop where
  producing : Producing t
  cfg : t.cfg = s.cfg
  inc : t.inc = s.inc
  off : t.off = s.off
  acc : t.acc.toNat = (s.acc.toNat + n * s.inc.toNat) % 2 ^ s.cfg.w

theorem exec_tick_of_producing {s : State} (hs : Producing s) : ∃ va vb, sample s.cfg s.acc = some va ∧
    sample s.cfg (phaseAdd s.cfg s.acc s.off) = some vb ∧ exec .tick s = .next (advance (emitSamples va vb s)) := by
  obtain ⟨hc, hacc, hl⟩ := hs
  obtain ⟨-, hw, -⟩ := (legal_iff s.cfg).mp hc
  obtain ⟨va, ha⟩ := sample_isSome hc hacc
  obtain ⟨vb, hb⟩ := sample_isSome hc (phaseAdd_lt hw s.acc s.off)
  exact ⟨va, vb, ha, hb, by rw [exec, execTick, hl]; exact produceSamples_of_samples ha hb⟩

theorem producing_advance {s : State} (hs : Producing s) (va vb : Sample) :
    Producing (advance (emitSamples va vb s)) := by
  obtain ⟨hc, -, hl⟩ := hs
  obtain ⟨-, hw, -⟩ := (legal_iff s.cfg).mp hc
  exact ⟨hc, phaseAdd_lt hw _ _, hl⟩

theorem tickedBy_zero {s : State} (hs : Producing s) : TickedBy 0 s s :=
  ⟨hs, rfl, rfl, rfl, by simp [Nat.mod_eq_of_lt hs.acc_lt]⟩

theorem tickedBy_succ {n : Nat} {s t : State} {va vb : Sample} (hs : Producing s)
    (ht : TickedBy n (advance (emitSamples va vb s)) t) : TickedBy (n + 1) s t := by
  obtain ⟨-, hw, -⟩ := (legal_iff s.cfg).mp hs.legal
  obtain ⟨hp, hcfg, hinc, hoff, hacc⟩ := ht
  refine ⟨hp, hcfg, hinc, hoff, ?_⟩
  simp only [advance_acc, advance_cfg, advance_inc, emitSamples_acc, emitSamples_cfg, emitSamples_inc,
    phaseAdd_toNat hw, Nat.mod_add_mod] at hacc
  rw [hacc, Nat.succ_mul, Nat.add_assoc, Nat.add_comm s.inc.toNat]

/-- Any number of TICKs of a running block completes, by induction on the number. -/
theorem ticks_of_producing (n : Nat) {s : State} (hs : Producing s) : ∃ t, ticks n s = .next t ∧ TickedBy n s t := by
  induction n generalizing s with
  | zero => exact ⟨s, ticks_zero s, tickedBy_zero hs⟩
  | succ n ih =>
    obtain ⟨va, vb, -, -, htick⟩ := exec_tick_of_producing hs
    obtain ⟨t, ht, hby⟩ := ih (producing_advance hs va vb)
    exact ⟨t, (ticks_succ_of_next htick).trans ht, tickedBy_succ hs hby⟩

/-! ## The cycle -/

theorem add_mod_eq_self_iff {a p : Nat} (ha : a < p) (x : Nat) : (a + x) % p = a ↔ p ∣ x := by
  calc (a + x) % p = a ↔ a ≡ a + x [MOD p] := by rw [Nat.ModEq, Nat.mod_eq_of_lt ha, eq_comm]
    _ ↔ p ∣ x := by rw [Nat.modEq_iff_dvd' (Nat.le_add_right a x), Nat.add_sub_cancel_left]

/-- The cycle is the additive order of INC mod 2^W. -/
theorem cycleTicks_dvd_iff (s : State) (m : Nat) : cycleTicks s ∣ m ↔ 2 ^ s.cfg.w ∣ m * s.inc.toNat := by
  rw [cycleTicks, ← ZMod.addOrderOf_coe _ (Nat.two_pow_pos _).ne', addOrderOf_dvd_iff_nsmul_eq_zero, nsmul_eq_mul,
    ← Nat.cast_mul, ZMod.natCast_eq_zero_iff]

/-- ACC is back after exactly the multiples of the cycle. -/
theorem acc_eq_iff_cycleTicks_dvd {m : Nat} {s t : State} (hs : Producing s) (ht : TickedBy m s t) :
    t.acc = s.acc ↔ cycleTicks s ∣ m := by
  rw [← BitVec.toNat_inj, ht.acc, add_mod_eq_self_iff hs.acc_lt, cycleTicks_dvd_iff]

/-- The cycle divides 2^W, and it is not 1: INC itself is no multiple of 2^W. -/
theorem two_dvd_cycleTicks {s : State} (hpos : 1 ≤ s.inc.toNat) (hlt : s.inc.toNat < 2 ^ s.cfg.w) :
    2 ∣ cycleTicks s := by
  have hdvd : cycleTicks s ∣ 2 ^ s.cfg.w := Nat.div_dvd_of_dvd (Nat.gcd_dvd_left _ _)
  obtain ⟨j, -, hj⟩ := (Nat.dvd_prime_pow Nat.prime_two).mp hdvd
  cases j with
  | zero =>
    have hinc : 2 ^ s.cfg.w ∣ 1 * s.inc.toNat := (cycleTicks_dvd_iff s 1).mp (by simp [hj])
    rw [Nat.one_mul] at hinc
    exact absurd (Nat.le_of_dvd hpos hinc) (by omega)
  | succ j => exact hj ▸ Dvd.intro_left _ (pow_succ 2 j).symm

/-- Settles O22: after m TICKs ACC has advanced by m × INC, which is a multiple of 2^W for the multiples of the cycle
alone. -/
theorem accumulatorClosesItsCycle : Obligations.AccumulatorClosesItsCycle := by
  intro s hc hacc hl hpos hmax
  have hs : Producing s := ⟨hc, hacc, hl⟩
  refine ⟨?_, fun m t hm hlt ht heq => ?_, two_dvd_cycleTicks hpos (by omega)⟩
  · obtain ⟨t, ht, hby⟩ := ticks_of_producing (cycleTicks s) hs
    exact ⟨t, ht, (acc_eq_iff_cycleTicks_dvd hs hby).mpr dvd_rfl⟩
  · obtain ⟨t', ht', hby⟩ := ticks_of_producing m hs
    cases ht.symm.trans ht'
    exact Nat.not_dvd_of_pos_of_lt hm hlt ((acc_eq_iff_cycleTicks_dvd hs hby).mp heq)

end Sys2Proof.Machine
end

section
/-! The TICK event (42_tick.md): it has no effect outside RUNNING (R141; O16), it completes and sets no STATUS bit (R148;
O12), what it emits (R142, R145 to R147; O17), and how OFF relates the two channels (R143, R144; O21, O23). -/

namespace Sys2Proof.Machine

/-! ## A TICK outside RUNNING, and the STATUS bits -/

/-- Settles O16: the TICK looks at LIFE alone before it leaves the state as it is. -/
theorem tickOutsideRunningHasNoEffect : Obligations.TickOutsideRunningHasNoEffect := by
  intro s h
  cases hl : s.life with
  | uninit | stopped => simp [exec, execTick, hl]
  | running => exact absurd hl h

/-- Settles O12: under the invariant both samples of a TICK exist, and every other event completes anyway; the TICK leaves
the state alone or writes only the outputs, the trace and ACC, of which STATUS shows nothing. -/
theorem everyEventCompletes : Obligations.EveryEventCompletes := by
  refine ⟨fun s i hs => exec_completes_of_inv hs i, fun s t h => ?_⟩
  obtain ⟨-, rfl⟩ | ⟨-, va, vb, -, -, rfl⟩ := execTick_next h
  · simp
  · exact ⟨rfl, rfl, rfl, rfl, rfl, rfl⟩

/-! ## What a TICK in RUNNING emits -/

/-- OUT_A and OUT_B hold through every event but a producing TICK and a RESET (R147). -/
theorem outputs_hold {i : Instr} {s t : State} (h : exec i s = .next t) (hr : i ≠ .reset)
    (ht : i = .tick → s.life ≠ .running) : t.outA = s.outA ∧ t.outB = s.outB := by
  obtain ⟨-, -, -, -, hout, -⟩ := elementsChangeOnlyByTheirWriters i s t h
  by_contra hne
  obtain ⟨hi, hl⟩ | hi := hout (not_and_or.mp hne)
  · exact ht hi hl
  · exact hr hi

/-- Settles O17: a running block with ACC in range has both samples, each an A-bit value; the hold is `outputs_hold`. -/
theorem tickInRunningEmitsBothSamplesAndAdvances : Obligations.TickInRunningEmitsBothSamplesAndAdvances := by
  refine ⟨fun s hc hacc hl => ?_, fun i s t => outputs_hold⟩
  obtain ⟨-, hw, -, -, -, ha, -⟩ := (legal_iff s.cfg).mp hc
  obtain ⟨va, vb, hva, hvb, htick⟩ := exec_tick_of_producing ⟨hc, hacc, hl⟩
  exact ⟨phaseAdd s.cfg s.acc s.off, phaseAdd s.cfg s.acc s.inc, va, vb, phaseAdd_toNat hw _ _, phaseAdd_toNat hw _ _,
    hva, hvb, sample_lt ha hva, sample_lt ha hvb, htick⟩

/-! ## No offset (R143) -/

theorem phaseAdd_zero {c : Config} (hw : c.w ≤ 32) {p : Word} (hp : p.toNat < 2 ^ c.w) : phaseAdd c p 0 = p := by
  apply BitVec.eq_of_toNat_eq
  simpa [phaseAdd_toNat hw] using Nat.mod_eq_of_lt hp

/-- Settles O21: with OFF = 0 channel B's phase is ACC itself, so both channels sample the same phase. -/
theorem zeroOffsetMakesTheChannelsEqual : Obligations.ZeroOffsetMakesTheChannelsEqual := by
  intro s hc hacc hl hoff
  obtain ⟨-, hw, -⟩ := (legal_iff s.cfg).mp hc
  obtain ⟨va, vb, hva, hvb, htick⟩ := exec_tick_of_producing ⟨hc, hacc, hl⟩
  rw [hoff, phaseAdd_zero hw hacc, hva] at hvb
  cases hvb
  exact ⟨_, va, htick, rfl, rfl, rfl⟩

/-! ## A half-turn offset (R144) -/

/-- 180 degrees is half of DEG360, so its exact quotient is half the phase modulus. -/
theorem phaseToOff_half_turn {c : Config} (hw : 1 ≤ c.w) : phaseToOff c (normPhase (180 * 65536)) = 2 ^ (c.w - 1) := by
  have hP : 2 * 2 ^ (c.w - 1) = 2 ^ c.w := mul_pow_sub_one (by omega) 2
  have hpos : 0 < 2 ^ (c.w - 1) := by positivity
  have hturn : Config.deg360 = 2 * normPhase (180 * 65536) := rfl
  have hexact : normPhase (180 * 65536) * 2 ^ c.w = 2 ^ (c.w - 1) * Config.deg360 := by
    rw [← hP, hturn]
    ring
  rw [phaseToOff, Config.phaseMod, hexact, rhu_mul_self _ (by decide)]
  exact Nat.mod_eq_of_lt (by omega)

/-- A number that is no multiple of 2h but whose double is one lies half way between two multiples. -/
theorem mod_two_mul_eq_half {h x : Nat} (hd : 2 * h ∣ 2 * x) (hn : ¬ 2 * h ∣ x) : x % (2 * h) = h := by
  obtain ⟨m, rfl⟩ := Nat.dvd_of_mul_dvd_mul_left (by decide) hd
  have hodd : m % 2 = 1 := by
    refine Nat.mod_two_ne_zero.mp fun heven => hn ?_
    rw [Nat.mul_comm 2]
    exact Nat.mul_dvd_mul_left h (Nat.dvd_of_mod_eq_zero heven)
  rw [Nat.mul_comm 2, Nat.mul_mod_mul_left, hodd, Nat.mul_one]

/-- Half a cycle of TICKs advances ACC by half a turn: a whole cycle advances it by whole turns, and no shorter run does. -/
theorem half_cycle_mul_inc_mod {s : State} (hw : 1 ≤ s.cfg.w) (hpos : 1 ≤ s.inc.toNat)
    (hlt : s.inc.toNat < 2 ^ s.cfg.w) : cycleTicks s / 2 * s.inc.toNat % 2 ^ s.cfg.w = 2 ^ (s.cfg.w - 1) := by
  have hP : 2 * 2 ^ (s.cfg.w - 1) = 2 ^ s.cfg.w := mul_pow_sub_one (by omega) 2
  have heven : 2 * (cycleTicks s / 2) = cycleTicks s := Nat.mul_div_cancel' (two_dvd_cycleTicks hpos hlt)
  have hcycle : 0 < cycleTicks s :=
    Nat.div_pos (Nat.gcd_le_left _ (Nat.two_pow_pos _)) (Nat.gcd_pos_of_pos_left _ (Nat.two_pow_pos _))
  rw [← hP]
  apply mod_two_mul_eq_half
  · rw [← Nat.mul_assoc, heven, hP, ← cycleTicks_dvd_iff]
  · rw [hP, ← cycleTicks_dvd_iff]
    exact Nat.not_dvd_of_pos_of_lt (by omega) (by omega)

theorem ticks_succ_of_ticks {n : Nat} {s t u : State} (ht : ticks n s = .next t) (hu : exec .tick t = .next u) :
    ticks (n + 1) s = .next u := by
  rw [ticks, List.replicate_succ', execAll_append_of_next ht, execAll_cons_of_next hu, execAll_nil]

/-- The phases that the outputs of tick `k` of a running block sample; the first tick is tick 0. -/
theorem ticks_outputs {s : State} (hs : Producing s) (k : Nat) : ∃ (t : State) (pa pb : Word),
    ticks (k + 1) s = .next t ∧ sample s.cfg pa = some t.outA ∧ sample s.cfg pb = some t.outB ∧
    pa.toNat = (s.acc.toNat + k * s.inc.toNat) % 2 ^ s.cfg.w ∧
    pb.toNat = (s.acc.toNat + k * s.inc.toNat + s.off.toNat) % 2 ^ s.cfg.w := by
  obtain ⟨-, hw, -⟩ := (legal_iff s.cfg).mp hs.legal
  obtain ⟨t, ht, hby⟩ := ticks_of_producing k hs
  obtain ⟨va, vb, hva, hvb, htick⟩ := exec_tick_of_producing hby.producing
  rw [hby.cfg] at hva
  rw [hby.cfg, hby.off] at hvb
  refine ⟨_, t.acc, phaseAdd s.cfg t.acc s.off, ticks_succ_of_ticks ht htick, hva, hvb, hby.acc, ?_⟩
  rw [phaseAdd_toNat hw, hby.acc, Nat.mod_add_mod]

/-- Settles O23: channel B of tick k and channel A of tick k + L/2 sample the same phase, since half a cycle and the offset
are both half a turn. -/
theorem halfTurnOffsetIsHalfACycleLater : Obligations.HalfTurnOffsetIsHalfACycleLater := by
  refine ⟨fun c hc => ?_, fun s k hc hacc hl hpos hmax hoff => ?_⟩
  · obtain ⟨hw, -⟩ := (legal_iff c).mp hc
    exact phaseToOff_half_turn hw
  · obtain ⟨hw, -⟩ := (legal_iff s.cfg).mp hc
    have hs : Producing s := ⟨hc, hacc, hl⟩
    obtain ⟨t, -, pb, ht, -, hB, -, hpb⟩ := ticks_outputs hs k
    obtain ⟨u, pa, -, hu, hA, -, hpa, -⟩ := ticks_outputs hs (k + cycleTicks s / 2)
    have hphase : pb = pa := by
      apply BitVec.eq_of_toNat_eq
      rw [hpb, hpa, hoff, ← half_cycle_mul_inc_mod hw hpos (by omega), Nat.add_mod_mod, Nat.add_mul, Nat.add_assoc]
    rw [hphase, hA] at hB
    exact ⟨t, u, ht, hu, (Option.some.inj hB).symm⟩

end Sys2Proof.Machine
end

section
/-! Register reads and writes (43_control.md R160 to R175): the events that need an initialised block (R175; O35), the
rows against the dispatch by offset (R160, R191; O9), the writes (R161, R163, R170; O27, O28, O29), the reads (R162 to
R167, R169, R171 to R173; O30, O31, O32), and the illegal accesses and reserved codes (R174; O34). -/

namespace Sys2Proof.Machine

/-! ## The lifecycle gate -/

/-- The gate as R160 writes it. -/
theorem ifInitialised_eq_ite (s t : State) : ifInitialised s t = if s.life = .uninit then raise .notInit s else t := by
  split_ifs with hl
  · exact ifInitialised_of_uninit t hl
  · exact ifInitialised_of_ne_uninit t hl

/-- An event that needs an initialised block is the gate before some operation. -/
theorem exec_of_needsInit {i : Instr} (hi : NeedsInit i) (s : State) : ∃ t, exec i s = .next (ifInitialised s t) := by
  obtain hi | ⟨d, rfl⟩ | ⟨d, rfl⟩ := hi
  · simp only [List.mem_cons, List.not_mem_nil, or_false] at hi
    obtain rfl | rfl | rfl | rfl | rfl | rfl | rfl | rfl := hi <;> exact ⟨_, rfl⟩
  · exact ⟨_, rfl⟩
  · exact ⟨_, rfl⟩

theorem exec_of_needsInit_of_uninit {i : Instr} {s : State} (hi : NeedsInit i) (hl : s.life = .uninit) :
    exec i s = .next { s with eNotInit := true, trace := s.trace ++ [.response .err 0] } := by
  obtain ⟨t, ht⟩ := exec_of_needsInit hi s
  rw [ht, ifInitialised_of_uninit t hl, raise_notInit_eq]

/-- Settles O35: each of the ten operations needs an initialised block. -/
theorem controlBeforeInitRaisesNotInitialised : Obligations.ControlBeforeInitRaisesNotInitialised := by
  intro s i d hl hi
  refine exec_of_needsInit_of_uninit ?_ hl
  simp only [List.mem_cons, List.not_mem_nil, or_false] at hi
  simp only [NeedsInit, List.mem_cons, List.not_mem_nil, or_false]
  tauto

/-! ## The access check (R160) -/

/-- The check of a bus read refuses the offsets that are no register to read. -/
theorem isReadable_eq_false_iff (a : Offset) :
    isReadable a = false ↔ a.extractLsb' 0 2 ≠ 0#2 ∨ a > 0x28 ∨ a = 0x00 := by
  revert a
  decide

/-- The check of a bus write refuses the offsets that are no register to write: those that are, are aligned. -/
theorem isWritable_eq_false_iff (a : Offset) : isWritable a = false ↔
    a.extractLsb' 0 2 ≠ 0#2 ∨ ¬(a = 0x00 ∨ a = 0x04 ∨ a = 0x08 ∨ a = 0x0C) := by
  rw [← isWritable_iff, Bool.not_eq_true]
  refine ⟨.inr, ?_⟩
  rintro (hal | h)
  · cases h : isWritable a with
    | false => rfl
    | true => obtain rfl | rfl | rfl | rfl := (isWritable_iff a).mp h <;> exact absurd (by decide) hal
  · exact h

/-! ## Bus reads by offset -/

theorem busRead_of_illegal {a : Offset} (h : isReadable a = false) (s : State) : busRead a s = raise .addr s :=
  if_pos ((isReadable_eq_false_iff a).mp h)

/-- The offsets whose read is legal only when initialised (R160). -/
abbrev ReadNeedsInit (a : Offset) : Prop := a = 0x08 ∨ a = 0x0C ∨ a = 0x10 ∨ a = 0x14 ∨ a = 0x18 ∨ a = 0x1C

/-- A read that passes the access check: through the lifecycle gate, or in every LIFE. -/
theorem busRead_of_readable {a : Offset} (h : isReadable a = true) (s : State) : busRead a s =
    if ReadNeedsInit a then readGated (readValue a s) s else respond .ok (readValue a s) s := by
  have hacc := mt (isReadable_eq_false_iff a).mpr (by simp [h])
  rw [busRead, if_neg hacc]
  by_cases hg : ReadNeedsInit a
  · simp only [hg, true_and, if_true, readGated, ifInitialised_eq_ite]
  · rw [if_neg hg, if_neg fun hu => hg hu.1]

/-- The row of a read is the dispatch by offset. -/
theorem exec_decodeRead (a : Offset) (s : State) : exec (decodeRead a) s = .next (busRead a s) := by
  cases h : isReadable a with
  | false =>
    rw [decodeRead_of_illegal h, busRead_of_illegal h]
    rfl
  | true =>
    rw [busRead_of_readable h]
    obtain rfl | rfl | rfl | rfl | rfl | rfl | rfl | rfl | rfl | rfl := (isReadable_iff a).mp h <;> rfl

/-! ## Bus writes by offset -/

theorem busWrite_of_illegal {a : Offset} (h : isWritable a = false) (d : Word) (s : State) :
    busWrite a d s = raise .addr s :=
  if_pos ((isWritable_eq_false_iff a).mp h)

/-- The row of a command code is the command dispatch (44_lifecycle.md R191). -/
theorem exec_decodeCommand (code : Word) (s : State) : exec (decodeCommand code) s = .next (command code s) := by
  unfold decodeCommand command
  split_ifs
  · by_cases hl : s.life = .uninit
    · rw [exec_cmdInit_of_uninit hl, commandInit, if_neg (not_not.mpr hl)]
    · rw [exec_cmdInit_of_initialised hl, commandInit, if_pos hl]
  · rfl
  · exact congrArg _ (ifInitialised_eq_ite _ _)
  · exact congrArg _ (ifInitialised_eq_ite _ _)
  · rfl

/-- The row of a write is the dispatch by offset. -/
theorem exec_decodeWrite (a : Offset) (d : Word) (s : State) : exec (decodeWrite a d) s = .next (busWrite a d s) := by
  cases h : isWritable a with
  | false =>
    rw [decodeWrite_of_illegal h, busWrite_of_illegal h]
    rfl
  | true =>
    obtain rfl | rfl | rfl | rfl := (isWritable_iff a).mp h
    · exact exec_decodeCommand d s
    · rfl
    · exact congrArg _ ((ifInitialised_eq_ite _ _).trans (by simp [busWrite]))
    · exact congrArg _ ((ifInitialised_eq_ite _ _).trans (by simp [busWrite]))

/-- Settles O9: the words decode to the row of their offset, and each row does what the dispatch does at that offset. -/
theorem opcodeRowsRefineTheBusDispatch : Obligations.OpcodeRowsRefineTheBusDispatch :=
  ⟨fun s a => ⟨decodeRead a, decode_packTW_read a, exec_decodeRead a s⟩,
    fun s a d => ⟨decodeWrite a d, decode_packTW_write a d, exec_decodeWrite a d s⟩⟩

/-! ## Illegal accesses and reserved codes -/

/-- Settles O34: such an offset or code is in no other row, and the fall-back row raises whatever it holds. -/
theorem illegalAccessesAndReservedCodesRaise : Obligations.IllegalAccessesAndReservedCodesRaise := by
  refine ⟨fun s a ha => ⟨?_, congrArg Host.Outcome.next (raise_addr_eq s)⟩,
    fun s a d ha => ⟨?_, congrArg Host.Outcome.next (raise_addr_eq s)⟩,
    fun s d hd => ⟨?_, congrArg Host.Outcome.next (raise_cmd_eq s)⟩⟩
  · have hr : isReadable a = false := by
      rw [isReadable_eq_false_iff]
      exact ha.imp_right (Or.imp_left fun hhigh => by bv_omega)
    exact decode_encode (i := .rdIllegal a) (by simp [Instr.wellFormed, hr])
  · have hw : ¬isWritable a = true := by
      rw [isWritable_iff]
      tauto
    exact decode_encode (i := .wrIllegal a d) (by simp [Instr.wellFormed, hw])
  · have hc : ¬isCommandCode d = true := by
      rw [isCommandCode_iff]
      tauto
    exact decode_encode (i := .cmdRsvd d) (by simp [Instr.wellFormed, hc])

/-! ## Register writes -/

/-- INC of a frequency code as R122 writes it. -/
theorem freqToInc_eq (c : Config) (f : Nat) : freqToInc c f =
    min (max ((2 * (f * 2 ^ c.w) + c.sr * 256) / (2 * (c.sr * 256))) 1) (2 ^ c.w - 1) := by
  rw [freqToInc, rawInc, rhu_eq]
  rfl

/-- OFF of a normalised phase code as R125 writes it. -/
theorem phaseToOff_eq (c : Config) (dn : Nat) : phaseToOff c dn =
    (2 * (dn * 2 ^ c.w) + 23592960) / (2 * 23592960) % 2 ^ c.w := by
  rw [phaseToOff, rhu_eq]
  rfl

/-- Settles O27: the words that WR_FREQ loads hold the clamped code and its increment whole. -/
theorem writeFrequencyLoadsTheClampedCodeAndItsIncrement :
    Obligations.WriteFrequencyLoadsTheClampedCodeAndItsIncrement := by
  refine ⟨decode_packTW_write 0x08, fun s d hc hl => ?_,
    fun s d => exec_of_needsInit_of_uninit (.inr (.inl ⟨d, rfl⟩))⟩
  refine ⟨_, _, ?_, ?_, exec_wrFreq_of_initialised hl d⟩
  · exact toNat_clampFreq hc _
  · rw [loadFreq_inc, loadFreq_freqReq, toNat_clampFreq hc, toNat_freqToInc hc, freqToInc_eq]

/-- Settles O28: the words that WR_PHASE loads hold the normalised code and its offset whole. -/
theorem writePhaseLoadsTheNormalisedCodeAndItsOffset : Obligations.WritePhaseLoadsTheNormalisedCodeAndItsOffset := by
  refine ⟨decode_packTW_write 0x0C, fun s d hc hl => ?_,
    fun s d => exec_of_needsInit_of_uninit (.inr (.inr ⟨d, rfl⟩))⟩
  refine ⟨_, _, ?_, ?_, exec_wrPhase_of_initialised hl d⟩
  · rw [loadPhase_phaseReq, toNat_normPhase, normPhase_cast, phaseOperand]
  · rw [loadPhase_off, loadPhase_phaseReq, toNat_normPhase, toNat_phaseToOff hc, phaseToOff_eq]

/-- Clearing by the mask DATA[11:8], bit by bit. -/
theorem clearErrors_clearMask (d : Word) (s : State) : clearErrors (clearMask d) s = { s with
    eNotInit := s.eNotInit && !d.getLsbD 8, eState := s.eState && !d.getLsbD 9, eCmd := s.eCmd && !d.getLsbD 10,
    eAddr := s.eAddr && !d.getLsbD 11 } := by
  simp [clearErrors, clearMask]

/-- Settles O29: WR_STATUS clears by the mask, in which no data bit but [11:8] stands. -/
theorem writeStatusClearsTheBitsWrittenAsOne : Obligations.WriteStatusClearsTheBitsWrittenAsOne :=
  ⟨decode_packTW_write 0x04, fun s d =>
    congrArg (fun t => Host.Outcome.next (respond .ok 0 t)) (clearErrors_clearMask d s)⟩

/-! ## Reads of the engine's registers -/

theorem readGated_of_initialised {s : State} (hl : s.life ≠ .uninit) (v : Word) :
    readGated v s = { s with trace := s.trace ++ [.response .ok v] } :=
  ifInitialised_of_ne_uninit _ hl

/-- A number below 2^w has no bit at or above w. -/
theorem getLsbD_eq_false_of_toNat_lt {x : Word} {w k : Nat} (hx : x.toNat < 2 ^ w) (hk : w ≤ k) : x.getLsbD k = false := by
  rw [← BitVec.testBit_toNat]
  exact Nat.testBit_lt_two_pow (hx.trans_le (Nat.pow_le_pow_right (by decide) hk))

/-- Settles O32: an initialised block answers the element, whose range the invariant gives. -/
theorem readsOfTheEngineReturnItsElements : Obligations.ReadsOfTheEngineReturnItsElements := by
  refine ⟨decode_packTW_read 0x08, decode_packTW_read 0x0C, decode_packTW_read 0x10, decode_packTW_read 0x14,
    decode_packTW_read 0x18, fun s hl => ?_, fun s i hl hi => exec_of_needsInit_of_uninit (.inl ?_) hl⟩
  · have hread := readGated_of_initialised hl
    refine ⟨congrArg _ (hread _), congrArg _ (hread _), congrArg _ (hread _), congrArg _ (hread _),
      congrArg _ (hread _), fun hinv => ?_⟩
    obtain ⟨-, hacc, -, ⟨hmin, hmax, -, hpos, hinc⟩, hph, -, hoff⟩ := (inv_iff_of_initialised hl).mp hinv
    have hph31 : s.phaseReq.toNat < 2 ^ 31 := hph.trans (by decide)
    refine ⟨hmin, hmax, hph, getLsbD_eq_false_of_toNat_lt hph31 le_rfl, hpos, Nat.le_pred_of_lt hinc, fun k hk => ?_⟩
    exact ⟨getLsbD_eq_false_of_toNat_lt hinc hk, getLsbD_eq_false_of_toNat_lt hoff hk,
      getLsbD_eq_false_of_toNat_lt hacc hk⟩
  · exact List.mem_append_left [Instr.rdFreqAch, .cmdStart, .cmdStop] hi

/-! ## Reads of STATUS -/

theorem statusWord_init_iff (s : State) : (statusWord s).getLsbD 0 = true ↔ s.life = .stopped ∨ s.life = .running := by
  simp only [statusWord, BitVec.getLsbD_append]
  cases h : s.life <;> simp [statusInit, h]

theorem statusWord_run_iff (s : State) : (statusWord s).getLsbD 1 = true ↔ s.life = .running := by
  simp only [statusWord, BitVec.getLsbD_append]
  simp [statusRun]

theorem statusWord_error_bits (s : State) : (statusWord s).getLsbD 8 = s.eNotInit ∧ (statusWord s).getLsbD 9 = s.eState ∧
    (statusWord s).getLsbD 10 = s.eCmd ∧ (statusWord s).getLsbD 11 = s.eAddr := by
  simp only [statusWord, BitVec.getLsbD_append]
  simp

/-- The reserved bits [7:2] and [31:12] (R169). -/
theorem statusWord_reserved_bit (s : State) {k : Nat} (hk : (2 ≤ k ∧ k ≤ 7) ∨ (12 ≤ k ∧ k ≤ 31)) :
    (statusWord s).getLsbD k = false := by
  simp only [statusWord, BitVec.getLsbD_append]
  obtain ⟨h2, h7⟩ | ⟨h12, -⟩ := hk
  · rw [if_neg (by omega), if_neg (by omega), if_pos (by omega), BitVec.getLsbD_zero]
  · iterate 7 rw [if_neg (by omega)]
    rw [BitVec.getLsbD_zero]

/-- Settles O30: the word is built of these bits, and RUN implies INIT because it names one LIFE of INIT's two. -/
theorem readStatusReturnsLifecycleAndErrorBits : Obligations.ReadStatusReturnsLifecycleAndErrorBits := by
  refine ⟨decode_packTW_read 0x04, fun s => ⟨statusWord s, rfl, statusWord_init_iff s, statusWord_run_iff s, ?_⟩⟩
  obtain ⟨hni, hst, hcmd, haddr⟩ := statusWord_error_bits s
  refine ⟨hni, hst, hcmd, haddr, fun k => statusWord_reserved_bit s, fun ⟨hrun, hinit⟩ => ?_⟩
  have hset := (statusWord_init_iff s).mpr (.inr ((statusWord_run_iff s).mp hrun))
  exact absurd hset (by rw [hinit]; decide)

/-! ## Reads of the constant registers -/

theorem configWord_w {c : Config} (hc : c.legal = true) : ((configWord c).extractLsb' 0 6).toNat = c.w := by
  obtain ⟨-, hw, -⟩ := (legal_iff c).mp hc
  rw [configWord, BitVec.extractLsb'_append_eq_of_add_le (by decide)]
  simp [Nat.mod_eq_of_lt (show c.w < 64 by omega)]

theorem configWord_a {c : Config} (hc : c.legal = true) : ((configWord c).extractLsb' 8 5).toNat = c.a := by
  obtain ⟨-, -, -, -, -, ha, -⟩ := (legal_iff c).mp hc
  rw [configWord, BitVec.extractLsb'_append_eq_of_le (by decide), BitVec.extractLsb'_append_eq_of_le (by decide),
    BitVec.extractLsb'_append_eq_of_add_le (by decide)]
  simp [Nat.mod_eq_of_lt (show c.a < 32 by omega)]

theorem configWord_interp (c : Config) : (configWord c).getLsbD 16 = c.interp := by
  simp only [configWord, BitVec.getLsbD_append]
  simp

/-- The reserved fields of CONFIG (R171), from the lowest. -/
theorem configWord_reserved (c : Config) : (configWord c).extractLsb' 6 2 = 0 ∧ (configWord c).extractLsb' 13 3 = 0 ∧
    (configWord c).extractLsb' 17 15 = 0 := by
  refine ⟨?_, ?_, ?_⟩ <;> rw [configWord, BitVec.extractLsb'_append_eq_of_le (by decide)]
  · rw [BitVec.extractLsb'_append_eq_of_add_le (by decide)]
    rfl
  · rw [BitVec.extractLsb'_append_eq_of_le (by decide), BitVec.extractLsb'_append_eq_of_le (by decide),
      BitVec.extractLsb'_append_eq_of_add_le (by decide)]
    rfl
  · iterate 4 rw [BitVec.extractLsb'_append_eq_of_le (by decide)]
    rfl

theorem toNat_tableSizeWord {c : Config} (hc : c.legal = true) : (tableSizeWord c).toNat = c.n := by
  obtain ⟨-, -, -, hn, -⟩ := (legal_iff c).mp hc
  rw [tableSizeWord, BitVec.toNat_append]
  simp [Nat.mod_eq_of_lt (show c.n < 131072 by omega)]

theorem toNat_sampleRateWord {c : Config} (hc : c.legal = true) : (sampleRateWord c).toNat = c.sr := by
  obtain ⟨-, -, -, -, -, -, -, hsr, -⟩ := (legal_iff c).mp hc
  rw [sampleRateWord, BitVec.toNat_append]
  simp [Nat.mod_eq_of_lt (show c.sr < 16777216 by omega)]

/-- Settles O31: the three rows answer their constant words, whose fields hold the parameters of a legal configuration. -/
theorem readConfigurationReturnsTheParameters : Obligations.ReadConfigurationReturnsTheParameters := by
  refine ⟨decode_packTW_read 0x20, decode_packTW_read 0x24, decode_packTW_read 0x28, fun s hc => ?_⟩
  obtain ⟨h6, h13, h17⟩ := configWord_reserved s.cfg
  exact ⟨_, _, _, rfl, rfl, rfl, configWord_w hc, h6, configWord_a hc, h13, configWord_interp _, h17,
    toNat_tableSizeWord hc, toNat_sampleRateWord hc⟩

end Sys2Proof.Machine
end

section
/-! The lifecycle (44_lifecycle.md R190 to R197): what CMD_INIT loads (R192; O36), what CMD_DEINIT, CMD_START and CMD_STOP
set (R193 to R195; O37), the transition table of LIFE (R190; O38), and the phase kept from a stop to the next start (R197;
O40). -/

namespace Sys2Proof.Machine

/-! ## The commands -/

theorem exec_cmdStart_of_initialised {s : State} (hl : s.life ≠ .uninit) :
    exec .cmdStart s = .next (respond .ok 0 (setLife .running s)) :=
  congrArg _ (ifInitialised_of_ne_uninit _ hl)

theorem exec_cmdStop_of_initialised {s : State} (hl : s.life ≠ .uninit) :
    exec .cmdStop s = .next (respond .ok 0 (setLife .stopped s)) :=
  congrArg _ (ifInitialised_of_ne_uninit _ hl)

/-- Settles O36: CMD_INIT loads the parameters by the operations of WR_FREQ and WR_PHASE, whose words hold the converted
numbers whole. -/
theorem initLoadsTheParameters : Obligations.InitLoadsTheParameters := by
  refine ⟨decode_encode (i := .cmdInit) rfl, fun s hc hl => ?_, fun s => exec_cmdInit_of_initialised⟩
  obtain ⟨-, -, hinc, -⟩ := loadFreq_freqLoaded (s := { s with acc := 0 }) hc (freqOperand s.cfg.initFreq)
  obtain ⟨-, hoff, -⟩ := loadPhase_phaseLoaded hc (phaseOperand s.cfg.initPhase)
  refine ⟨_, _, _, _, ?_, ?_, ?_, ?_, exec_cmdInit_of_uninit hl⟩
  · exact toNat_clampFreq hc _
  · exact hinc.trans (freqToInc_eq _ _)
  · exact (congrArg Nat.cast (toNat_normPhase _)).trans (normPhase_cast _)
  · exact hoff.trans (phaseToOff_eq _ _)

/-- Settles O37: CMD_DEINIT releases the engine; CMD_START and CMD_STOP set LIFE behind the lifecycle gate
(`ifInitialised`). -/
theorem deinitStartAndStopSetTheLifecycle : Obligations.DeinitStartAndStopSetTheLifecycle := by
  refine ⟨decode_encode (i := .cmdDeinit) rfl, decode_encode (i := .cmdStart) rfl, decode_encode (i := .cmdStop) rfl,
    fun s => rfl, fun s hl => ⟨exec_cmdStart_of_initialised hl, exec_cmdStop_of_initialised hl⟩,
    fun s i hl hi => exec_of_needsInit_of_uninit (.inl ?_) hl⟩
  exact List.mem_append_right [Instr.rdFreq, .rdPhase, .rdInc, .rdOffset, .rdAcc, .rdFreqAch] hi

/-! ## The transition table (R190) -/

/-- The next LIFE by R190's table; a cell that raises an error keeps LIFE. -/
def nextLife (i : Instr) (l : Life) : Life :=
  match i, l with
  | .cmdInit, .uninit => .stopped
  | .cmdDeinit, _ => .uninit
  | .cmdStart, .stopped => .running
  | .cmdStart, .running => .running
  | .cmdStop, .stopped => .stopped
  | .cmdStop, .running => .stopped
  | .reset, _ => .uninit
  | _, l => l

theorem nextLife_cmdStart_of_initialised {l : Life} (hl : l ≠ .uninit) : nextLife .cmdStart l = .running := by
  cases l with
  | uninit => exact absurd rfl hl
  | stopped | running => rfl

theorem nextLife_cmdStop_of_initialised {l : Life} (hl : l ≠ .uninit) : nextLife .cmdStop l = .stopped := by
  cases l with
  | uninit => exact absurd rfl hl
  | stopped | running => rfl

theorem nextLife_of_read {i : Instr} (hi : i ∈ legalReads) (l : Life) : nextLife i l = l := by
  simp only [legalReads, List.mem_cons, List.not_mem_nil, or_false] at hi
  obtain rfl | rfl | rfl | rfl | rfl | rfl | rfl | rfl | rfl | rfl := hi <;> rfl

theorem nextLife_of_needsInit {i : Instr} (hi : NeedsInit i) : nextLife i .uninit = .uninit := by
  obtain hi | ⟨d, rfl⟩ | ⟨d, rfl⟩ := hi
  · simp only [List.mem_cons, List.not_mem_nil, or_false] at hi
    obtain rfl | rfl | rfl | rfl | rfl | rfl | rfl | rfl := hi <;> rfl
  · rfl
  · rfl

/-- The cells of the table that name an error, and the events that raise in every LIFE, keep LIFE. -/
theorem nextLife_of_raises {i : Instr} {l : Life} {e : ErrorCode} (h : Raises i l e) : nextLife i l = l := by
  cases e with
  | notInit =>
    obtain ⟨rfl, hi⟩ := h
    exact nextLife_of_needsInit hi
  | state =>
    obtain ⟨hl, rfl⟩ := h
    cases l with
    | uninit => exact absurd rfl hl
    | stopped | running => rfl
  | cmd =>
    obtain ⟨c, rfl⟩ := h
    rfl
  | addr => obtain ⟨a, rfl⟩ | ⟨a, d, rfl⟩ := h <;> rfl

theorem life_of_exec {i : Instr} {s t : State} (h : exec i s = .next t) : t.life = nextLife i s.life := by
  cases effect_of_exec h with
  | init hl => simp [hl, nextLife]
  | start hl => exact (nextLife_cmdStart_of_initialised hl).symm
  | stop hl => exact (nextLife_cmdStop_of_initialised hl).symm
  | read _ hi => exact (nextLife_of_read hi _).symm
  | raise hr => exact (raise_life _ s).trans (nextLife_of_raises hr).symm
  | idleTick | tick | reset | deinit | wrStatus | wrFreq | wrPhase => rfl

/-- Settles O38: every effect moves LIFE as its cell says, and the cells with an error answer as O36, O37 and R191 say. -/
theorem lifecycleFollowsTheTransitionTable : Obligations.LifecycleFollowsTheTransitionTable := by
  intro i s t h
  refine ⟨life_of_exec h, ?_, ?_, ?_⟩
  · rintro rfl hl
    rw [exec_cmdInit_of_initialised hl] at h
    cases h
    exact ⟨rfl, rfl⟩
  · intro hi hl
    rw [exec_of_needsInit_of_uninit (.inl (by obtain rfl | rfl := hi <;> simp)) hl] at h
    cases h
    exact ⟨rfl, rfl⟩
  · rintro d rfl
    cases h
    exact ⟨rfl, rfl⟩

/-! ## From a stop to the next start (R197) -/

/-- The events that R190's table has a column for: every other event keeps LIFE. -/
def lifecycleEvents : List Instr := [.cmdInit, .cmdDeinit, .cmdStart, .cmdStop, .reset]

theorem not_mem_lifecycleEvents_of_read : ∀ i ∈ legalReads, i ∉ lifecycleEvents := by decide

/-- `t` is stopped at the phase of `s`, and the sink has received nothing since. -/
structure PausedFrom (s t : State) : Prop where
  life : t.life = .stopped
  cfg : t.cfg = s.cfg
  acc : t.acc = s.acc
  sink : sinkWrites t.trace = sinkWrites s.trace

/-- Only a TICK in RUNNING writes to the sink (42_tick.md R141, R146). -/
theorem sinkWrites_of_exec {i : Instr} {s t : State} (h : exec i s = .next t) (ht : i = .tick → s.life ≠ .running) :
    sinkWrites t.trace = sinkWrites s.trace := by
  cases effect_of_exec h with
  | tick hl => exact absurd hl (ht rfl)
  | idleTick | reset | init | deinit | start | stop | wrStatus | wrFreq | wrPhase | read | raise => simp

theorem exec_completes_of_ne_running {s : State} (hl : s.life ≠ .running) (i : Instr) : ∃ t, exec i s = .next t := by
  by_cases hi : i = .tick
  · exact ⟨s, hi ▸ tickOutsideRunningHasNoEffect s hl⟩
  · exact exec_completes_of_ne_tick hi s

/-- ACC and LIFE have no other writer in STOPPED than the lifecycle events. -/
theorem pausedFrom_exec {i : Instr} {s t u : State} (ht : PausedFrom s t) (hi : i ∉ lifecycleEvents)
    (hu : exec i t = .next u) : PausedFrom s u := by
  have hl : t.life ≠ .running := by simp [ht.life]
  obtain ⟨hacc, -, -, hlife, -⟩ := elementsChangeOnlyByTheirWriters i t u hu
  simp only [lifecycleEvents, List.mem_cons, List.not_mem_nil, or_false] at hi
  refine ⟨?_, (cfg_of_exec hu).trans ht.cfg, ?_, (sinkWrites_of_exec hu fun _ => hl).trans ht.sink⟩
  · exact (of_not_not (mt hlife (by tauto))).trans ht.life
  · exact (of_not_not (mt hacc (by tauto))).trans ht.acc

/-- Any events that are none of the lifecycle complete and keep the pause, by induction on the events. -/
theorem execAll_of_paused {s t : State} {es : List Instr} (ht : PausedFrom s t) (hes : ∀ i ∈ es, i ∉ lifecycleEvents) :
    ∃ u, execAll es t = .next u ∧ PausedFrom s u := by
  induction es generalizing t with
  | nil => exact ⟨t, execAll_nil t, ht⟩
  | cons i es ih =>
    obtain ⟨hi, hes⟩ := List.forall_mem_cons.mp hes
    obtain ⟨t', ht'⟩ := exec_completes_of_ne_running (s := t) (by simp [ht.life]) i
    rw [execAll_cons_of_next ht']
    exact ih (pausedFrom_exec ht hi ht') hes

/-- Settles O40: the events between are none of the lifecycle, so the start finds the phase that the stop left, and the
running block samples it at the next TICK. -/
theorem stopThenStartResumesFromTheSamePhase : Obligations.StopThenStartResumesFromTheSamePhase := by
  intro s es hc hacc hl hes
  have hstop : PausedFrom s (respond .ok 0 (setLife .stopped s)) := ⟨rfl, rfl, rfl, by simp⟩
  have hother : ∀ i ∈ es, i ∉ lifecycleEvents := by
    intro i hmem
    obtain rfl | ⟨d, rfl⟩ | ⟨d, rfl⟩ | ⟨d, rfl⟩ | hread | ⟨a, rfl⟩ := hes i hmem
    · decide
    · simp [lifecycleEvents]
    · simp [lifecycleEvents]
    · simp [lifecycleEvents]
    · exact not_mem_lifecycleEvents_of_read i hread
    · simp [lifecycleEvents]
  obtain ⟨t, hrun, ht⟩ := execAll_of_paused hstop hother
  have hstart := exec_cmdStart_of_initialised (s := t) (by simp [ht.life])
  obtain ⟨va, vb, hva, -, htick⟩ := exec_tick_of_producing (s := respond .ok 0 (setLife .running t))
    ⟨ht.cfg ▸ hc, by simpa [ht.cfg, ht.acc] using hacc, rfl⟩
  have hphase : sample s.cfg s.acc = some va := by simpa [ht.cfg, ht.acc] using hva
  refine ⟨respond .ok 0 (setLife .running t), _, va, ?_, rfl, ht.acc, by simpa using ht.sink, hphase, htick, rfl⟩
  rw [execAll_cons_of_next (exec_cmdStop_of_initialised (by simp [hl])), execAll_append_of_next hrun,
    execAll_cons_of_next hstart, execAll_nil]

end Sys2Proof.Machine
end

section
/-! Errors (60_exceptions.md): what an event that raises does and what any other answers (R210; O42), the fate of the
sticky bits (R218; O45), the causes of each error by the fields of the word (R211 to R214; O43), and the order in which a
bus transaction is checked (R217; O44). -/

namespace Sys2Proof.Machine

/-! ## Raising -/

/-- An event that has a cause for an error raises it. -/
theorem exec_of_raises {i : Instr} {s : State} {e : ErrorCode} (h : Raises i s.life e) : exec i s = .next (raise e s) := by
  cases e with
  | notInit =>
    obtain ⟨hl, hi⟩ := h
    exact exec_of_needsInit_of_uninit hi hl
  | state =>
    obtain ⟨hl, rfl⟩ := h
    exact exec_cmdInit_of_initialised hl
  | cmd =>
    obtain ⟨c, rfl⟩ := h
    rfl
  | addr => obtain ⟨a, rfl⟩ | ⟨a, d, rfl⟩ := h <;> rfl

/-- Nothing but `raise` answers ERR. -/
theorem raises_of_err_response {i : Instr} {s t : State} {d : Word} (h : exec i s = .next t)
    (ht : t.trace = s.trace ++ [.response .err d]) : d = 0 ∧ ∃ e, Raises i s.life e ∧ t = raise e s := by
  cases effect_of_exec h with
  | @raise _ e hr => exact ⟨by simpa using ht.symm, e, hr, rfl⟩
  | idleTick | tick | reset | init | deinit | start | stop | wrStatus | wrFreq | wrPhase | read => simp at ht

/-- Settles O42: an ERR answer is that of `raise`; a TICK adds two sink writes to the trace or nothing, a RESET nothing. -/
theorem anErringTransactionOnlySetsOneBit : Obligations.AnErringTransactionOnlySetsOneBit := by
  refine ⟨fun i s t d h ht => ?_, fun i s t r d h ht => ⟨?_, ?_⟩⟩
  · obtain ⟨hd, e, -, rfl⟩ := raises_of_err_response h ht
    refine ⟨hd, ?_⟩
    cases e with
    | notInit => exact .inl rfl
    | state => exact .inr (.inl rfl)
    | cmd => exact .inr (.inr (.inl rfl))
    | addr => exact .inr (.inr (.inr rfl))
  · rintro rfl
    obtain ⟨-, rfl⟩ | ⟨-, va, vb, -, -, rfl⟩ := execTick_next h
    · simp at ht
    · simp at ht
  · rintro rfl
    cases h
    simp at ht

/-! ## The sticky bits -/

/-- The sticky bit of an error (10_state.md R29). -/
def errorBit : ErrorCode → State → Bool
  | .notInit => State.eNotInit
  | .state => State.eState
  | .cmd => State.eCmd
  | .addr => State.eAddr

/-- The place of an error's bit in STATUS (10_state.md R36). -/
def errorPlace : ErrorCode → Nat
  | .notInit => 8
  | .state => 9
  | .cmd => 10
  | .addr => 11

theorem errorBit_raise (e e' : ErrorCode) (s : State) : errorBit e (raise e' s) = (errorBit e s || decide (e' = e)) := by
  cases e <;> simp [errorBit]

theorem errorBit_wrStatus {d : Word} {s t : State} (h : exec (.wrStatus d) s = .next t) (e : ErrorCode) :
    errorBit e t = (errorBit e s && !d.getLsbD (errorPlace e)) := by
  rw [exec, execWrStatus, clearErrors_clearMask] at h
  cases h
  cases e <;> rfl

/-- The events that write an error bit: a RESET, a WR_STATUS, and those that raise. -/
theorem errorBit_of_exec {i : Instr} {s t : State} (h : exec i s = .next t) (e : ErrorCode) :
    i = .reset ∨ (∃ d, i = .wrStatus d) ∨ errorBit e t = errorBit e s ∨ (Raises i s.life e ∧ errorBit e t = true) := by
  cases effect_of_exec h with
  | reset => exact .inl rfl
  | wrStatus d => exact .inr (.inl ⟨d, rfl⟩)
  | @raise _ e' hr =>
    by_cases he : e' = e
    · exact .inr (.inr (.inr ⟨he ▸ hr, by simp [errorBit_raise, he]⟩))
    · exact .inr (.inr (.inl (by simp [errorBit_raise, he])))
  | idleTick | tick | init | deinit | start | stop | wrFreq | wrPhase | read =>
    exact .inr (.inr (.inl (by cases e <;> rfl)))

theorem errorBit_stays {i : Instr} {s t : State} (h : exec i s = .next t) (hr : i ≠ .reset) {e : ErrorCode}
    (hs : errorBit e s = true) : errorBit e t = true ∨ ∃ d, i = .wrStatus d ∧ d.getLsbD (errorPlace e) = true := by
  obtain rfl | ⟨d, rfl⟩ | ht | ⟨-, ht⟩ := errorBit_of_exec h e
  · exact absurd rfl hr
  · cases hd : d.getLsbD (errorPlace e) with
    | false => exact .inl (by simp [errorBit_wrStatus h, hs, hd])
    | true => exact .inr ⟨d, rfl, hd⟩
  · exact .inl (ht.trans hs)
  · exact .inl ht

/-- A bit that is 0 becomes 1 exactly when the event has a cause for its error. -/
theorem errorBit_set_iff {i : Instr} {s t : State} (h : exec i s = .next t) {e : ErrorCode} (hs : errorBit e s = false) :
    errorBit e t = true ↔ Raises i s.life e := by
  refine ⟨fun ht => ?_, fun hr => ?_⟩
  · obtain rfl | ⟨d, rfl⟩ | hsame | ⟨hr, -⟩ := errorBit_of_exec h e
    · cases h
      cases e <;> cases ht
    · simp [errorBit_wrStatus h, hs] at ht
    · simp [hsame, hs] at ht
    · exact hr
  · cases (exec_of_raises hr).symm.trans h
    simp [errorBit_raise]

/-- Settles O45, for each of the four bits: `errorBit_stays`, and what WR_STATUS and RESET write. -/
theorem errorBitsStayUntilClearedOrReset : Obligations.ErrorBitsStayUntilClearedOrReset := by
  refine ⟨fun i s t h hr => ?_, fun s t d h => ?_, fun s t h => ?_⟩
  · exact ⟨errorBit_stays (e := .notInit) h hr, errorBit_stays (e := .state) h hr, errorBit_stays (e := .cmd) h hr,
      errorBit_stays (e := .addr) h hr⟩
  · have hclear (e : ErrorCode) (hd : d.getLsbD (errorPlace e) = true) : errorBit e t = false := by
      simp [errorBit_wrStatus h, hd]
    exact ⟨hclear .notInit, hclear .state, hclear .cmd, hclear .addr⟩
  · cases h
    exact ⟨rfl, rfl, rfl, rfl⟩

/-! ## The causes, by the fields of a word -/

/-- The causes of each error in a bus read (60_exceptions.md R211, R214). -/
def ReadRaises (a : Offset) (l : Life) : ErrorCode → Prop
  | .notInit => a ∈ [(0x08 : Offset), 0x0C, 0x10, 0x14, 0x18, 0x1C] ∧ l = .uninit
  | .state => False
  | .cmd => False
  | .addr => a.extractLsb' 0 2 ≠ 0 ∨ 0x2C ≤ a.toNat ∨ a = 0

/-- The causes of each error in a bus write (60_exceptions.md R211 to R214). -/
def WriteRaises (a : Offset) (d : Word) (l : Life) : ErrorCode → Prop
  | .notInit => ((a = 0 ∧ d ∈ [(3 : Word), 4]) ∨ a = 0x08 ∨ a = 0x0C) ∧ l = .uninit
  | .state => a = 0 ∧ d = 1 ∧ l ≠ .uninit
  | .cmd => a = 0 ∧ d ∉ [(1 : Word), 2, 3, 4]
  | .addr => a ∉ [(0x00 : Offset), 0x04, 0x08, 0x0C]

theorem readRaises_addr_iff (a : Offset) (l : Life) : ReadRaises a l .addr ↔ isReadable a = false := by
  rw [ReadRaises]
  revert a
  decide

theorem writeRaises_cmd_iff (d : Word) (l : Life) : WriteRaises 0 d l .cmd ↔ isCommandCode d = false := by
  rw [WriteRaises, ← Bool.not_eq_true, isCommandCode_iff]
  simp

theorem writeRaises_addr_iff (a : Offset) (d : Word) (l : Life) : WriteRaises a d l .addr ↔ isWritable a = false := by
  rw [WriteRaises, ← Bool.not_eq_true, isWritable_iff]
  simp

/-- The row of a read has the causes of its offset. -/
theorem raises_decodeRead_iff (a : Offset) (l : Life) (e : ErrorCode) :
    Raises (decodeRead a) l e ↔ ReadRaises a l e := by
  cases h : isReadable a with
  | false =>
    rw [decodeRead_of_illegal h]
    cases e with
    | addr => exact iff_of_true (.inl ⟨a, rfl⟩) ((readRaises_addr_iff a l).mpr h)
    | state | cmd => simp [Raises, ReadRaises]
    | notInit =>
      have ha : a ∉ [(0x08 : Offset), 0x0C, 0x10, 0x14, 0x18, 0x1C] := by
        revert a
        decide
      exact iff_of_false (by simp [Raises, NeedsInit]) fun hr => ha hr.1
  | true =>
    obtain rfl | rfl | rfl | rfl | rfl | rfl | rfl | rfl | rfl | rfl := (isReadable_iff a).mp h <;>
      cases e <;> simp [decodeRead, Raises, NeedsInit, ReadRaises]

theorem raises_decodeCommand_iff (d : Word) (l : Life) (e : ErrorCode) :
    Raises (decodeCommand d) l e ↔ WriteRaises 0 d l e := by
  cases h : isCommandCode d with
  | false =>
    have hd := (writeRaises_cmd_iff d l).mpr h
    rw [decodeCommand_of_reserved h]
    cases e <;> simp_all [Raises, NeedsInit, WriteRaises]
  | true =>
    obtain rfl | rfl | rfl | rfl := (isCommandCode_iff d).mp h <;> cases e <;>
      simp [decodeCommand, Raises, NeedsInit, WriteRaises, and_comm]

/-- The row of a write has the causes of its offset and, at CMD, of its code. -/
theorem raises_decodeWrite_iff (a : Offset) (d : Word) (l : Life) (e : ErrorCode) :
    Raises (decodeWrite a d) l e ↔ WriteRaises a d l e := by
  cases h : isWritable a with
  | false =>
    have ha := (writeRaises_addr_iff a d l).mpr h
    rw [decodeWrite_of_illegal h]
    cases e <;> simp_all [Raises, NeedsInit, WriteRaises]
  | true =>
    obtain rfl | rfl | rfl | rfl := (isWritable_iff a).mp h
    · exact raises_decodeCommand_iff d l e
    all_goals cases e <;> simp [decodeWrite, Raises, NeedsInit, WriteRaises]

/-- A word's event has a cause by the word's KIND, ADDR and DATA. -/
theorem raises_iff_of_decode_ok {w : TW} {i : Instr} (h : decode w = .ok i) (l : Life) (e : ErrorCode) :
    Raises i l e ↔ (kindOf w = kindRead ∧ ReadRaises (addrOf w) l e) ∨
      (kindOf w = kindWrite ∧ WriteRaises (addrOf w) (dataOf w) l e) := by
  obtain ⟨-, ⟨hk, -, -, rfl⟩ | ⟨hk, -, -, rfl⟩ | ⟨hk, -, rfl⟩ | ⟨hk, rfl⟩⟩ := decode_ok_cases h
  · cases e <;> simp [hk, kindTick, kindRead, kindWrite, Raises, NeedsInit]
  · cases e <;> simp [hk, kindReset, kindRead, kindWrite, Raises, NeedsInit]
  · simp [hk, kindRead, kindWrite, raises_decodeRead_iff]
  · simp [hk, kindRead, kindWrite, raises_decodeWrite_iff]

theorem addrOf_low_bits (w : TW) : (addrOf w).extractLsb' 0 2 = w.extractLsb' 32 2 := by
  ext k hk
  simp [addrOf, show k < 8 by omega]

/-- The offsets that are no register to write: misaligned, or from 0x10 on. -/
theorem not_writable_iff_toNat (a : Offset) :
    a ∉ [(0x00 : Offset), 0x04, 0x08, 0x0C] ↔ a.extractLsb' 0 2 ≠ 0 ∨ 0x10 ≤ a.toNat := by
  revert a
  decide

/-- Settles O43: each bit is set exactly by the causes of its error (`errorBit_set_iff`), which
`raises_iff_of_decode_ok` reads off the word. -/
theorem eachErrorBitIsSetExactlyByItsCauses : Obligations.EachErrorBitIsSetExactlyByItsCauses := by
  refine ⟨fun s => ⟨rfl, statusWord_error_bits s⟩, fun w i s t hd h => ?_⟩
  have hset (e : ErrorCode) (hs : errorBit e s = false) :=
    (errorBit_set_iff h hs).trans (raises_iff_of_decode_ok hd s.life e)
  refine ⟨fun hs => (hset .notInit hs).trans ?_, fun hs => (hset .state hs).trans ?_, fun hs => (hset .cmd hs).trans ?_,
    fun hs => (hset .addr hs).trans ?_⟩
  · change _ ↔ s.life = .uninit ∧ ((kindOf w = kindRead ∧ addrOf w ∈ _) ∨ (kindOf w = kindWrite ∧ addrOf w ∈ _) ∨
      (kindOf w = kindWrite ∧ addrOf w = 0 ∧ dataOf w ∈ _))
    simp only [ReadRaises, WriteRaises, List.mem_cons, List.not_mem_nil, or_false]
    tauto
  · change _ ↔ s.life ≠ .uninit ∧ kindOf w = kindWrite ∧ addrOf w = 0 ∧ dataOf w = 1
    simp only [ReadRaises, WriteRaises]
    tauto
  · simp only [ReadRaises, WriteRaises, and_false, false_or]
    exact Iff.rfl
  · rw [ReadRaises, WriteRaises, not_writable_iff_toNat, addrOf_low_bits]
    exact Iff.rfl

/-! ## The order of the checks -/

theorem kindOf_encode_of_read : ∀ i ∈ legalReads, kindOf (encode i) = kindRead := by decide

/-- The two answers of an event encoded as a bus write. -/
theorem answer_of_write {i : Instr} {s t : State} (hk : kindOf (encode i) = kindWrite) (h : exec i s = .next t) :
    t.trace = s.trace ++ [.response .ok 0] ∨ ∃ e, Raises i s.life e := by
  cases effect_of_exec h with
  | idleTick | tick | reset => exact absurd hk (by decide)
  | read v hi => exact absurd hk (kindOf_encode_of_read i hi ▸ by decide)
  | raise hr => exact .inr ⟨_, hr⟩
  | init | deinit | start | stop | wrStatus | wrFreq | wrPhase => exact .inl rfl

/-- The two answers of an event encoded as a bus read; neither changes another element. -/
theorem answer_of_read {i : Instr} {s t : State} (hk : kindOf (encode i) = kindRead) (h : exec i s = .next t) :
    (∃ v, t = respond .ok v s) ∨ ∃ e, Raises i s.life e := by
  cases effect_of_exec h with
  | idleTick | tick | reset | init | deinit | start | stop => exact absurd hk (by decide)
  | wrStatus | wrFreq | wrPhase => simp [encode, kindRead, kindWrite] at hk
  | read v hi => exact .inl ⟨v, rfl⟩
  | raise hr => exact .inr ⟨_, hr⟩

/-- A TICK looks at nothing that `raise` changes. -/
theorem exec_tick_raise {s t : State} (e : ErrorCode) (h : exec .tick s = .next t) :
    ∃ u, exec .tick (raise e s) = .next u ∧ u.acc = t.acc ∧ u.outA = t.outA ∧ u.outB = t.outB ∧
      sinkWrites u.trace = sinkWrites t.trace := by
  obtain ⟨hl, rfl⟩ | ⟨hl, va, vb, ha, hb, rfl⟩ := execTick_next h
  · exact ⟨_, tickOutsideRunningHasNoEffect _ (by simpa using hl), by simp⟩
  · refine ⟨advance (emitSamples va vb (raise e s)), ?_, by simp [sinkWrites]⟩
    rw [exec, execTick, raise_life, hl]
    exact produceSamples_of_samples (by simpa using ha) (by simpa using hb)

/-- Settles O44: each check that fails is a cause of its error, and an event with no cause answers OK. -/
theorem errorsAreRaisedInTheOrderOfPrecedence : Obligations.ErrorsAreRaisedInTheOrderOfPrecedence := by
  refine ⟨fun s a d => ⟨⟨decodeWrite a d, decode_packTW_write a d, ?_⟩, decodeRead a, decode_packTW_read a, ?_⟩,
    fun i s e t d he ht h => ?_⟩
  · have hraise (e : ErrorCode) (he : WriteRaises a d s.life e) : exec (decodeWrite a d) s = .next (raise e s) :=
      exec_of_raises ((raises_decodeWrite_iff a d s.life e).mpr he)
    split_ifs with haddr hcmd hstate hinit
    · exact hraise .cmd hcmd
    · exact hraise .state hstate
    · exact hraise .notInit hinit
    · refine ⟨_, exec_decodeWrite a d s, ?_⟩
      have hk : kindOf (encode (decodeWrite a d)) = kindWrite := by rw [encode_decodeWrite, kindOf_packTW]
      obtain hok | ⟨e, he⟩ := answer_of_write hk (exec_decodeWrite a d s)
      · exact hok
      · have he := (raises_decodeWrite_iff a d s.life e).mp he
        cases e with
        | notInit => exact absurd he hinit
        | state => exact absurd he hstate
        | cmd => exact absurd he hcmd
        | addr => exact absurd haddr he
    · exact hraise .addr haddr
  · have hraise (e : ErrorCode) (he : ReadRaises a s.life e) : exec (decodeRead a) s = .next (raise e s) :=
      exec_of_raises ((raises_decodeRead_iff a s.life e).mpr he)
    split_ifs with haddr hinit
    · exact hraise .addr haddr
    · exact hraise .notInit hinit
    · have hk : kindOf (encode (decodeRead a)) = kindRead := by rw [encode_decodeRead, kindOf_packTW]
      obtain ⟨v, hv⟩ | ⟨e, he⟩ := answer_of_read hk (exec_decodeRead a s)
      · exact ⟨v, (exec_decodeRead a s).trans (congrArg _ hv)⟩
      · have he := (raises_decodeRead_iff a s.life e).mp he
        cases e with
        | notInit => exact absurd he hinit
        | state | cmd => exact he.elim
        | addr => exact absurd he haddr
  · obtain ⟨-, c, -, rfl⟩ := raises_of_err_response he ht
    exact exec_tick_raise c h

end Sys2Proof.Machine
end

section
/-! Silence (70_reset_and_hazards.md): a block that is not RUNNING does not produce, and R190's table says which events let
it become RUNNING: none but CMD_START (R246; O39), and from UNINIT only after a CMD_INIT, which starts ACC at 0 (R250; O41). -/

namespace Sys2Proof.Machine

/-! ## Where R190's table keeps LIFE out of RUNNING -/

theorem nextLife_ne_running {i : Instr} {l : Life} (hi : i ≠ .cmdStart) (hl : l ≠ .running) : nextLife i l ≠ .running := by
  unfold nextLife
  split <;> simp_all

theorem nextLife_uninit {i : Instr} (hi : i ≠ .cmdInit) : nextLife i .uninit = .uninit := by
  unfold nextLife
  split <;> simp_all

theorem nextLife_stopped {i : Instr} (hi : i ∉ [Instr.cmdStart, .cmdDeinit, .reset]) : nextLife i .stopped = .stopped := by
  unfold nextLife
  split <;> simp_all

/-! ## Silent events and silent runs -/

/-- The block came from `s` to `t` without producing: the sink has received nothing, and an ACC of 0 is still 0. -/
structure SilentFrom (s t : State) : Prop where
  cfg : t.cfg = s.cfg
  acc : s.acc = 0 → t.acc = 0
  sink : sinkWrites t.trace = sinkWrites s.trace

theorem SilentFrom.refl (s : State) : SilentFrom s s := ⟨rfl, id, rfl⟩

theorem SilentFrom.trans {s t u : State} (ht : SilentFrom s t) (hu : SilentFrom t u) : SilentFrom s u :=
  ⟨hu.cfg.trans ht.cfg, hu.acc ∘ ht.acc, hu.sink.trans ht.sink⟩

/-- ACC is advanced by a TICK in RUNNING alone; every other writer clears it (10_state.md R23). -/
theorem silentFrom_exec {i : Instr} {s t : State} (h : exec i s = .next t) (hi : i = .tick → s.life ≠ .running) :
    SilentFrom s t := by
  refine ⟨cfg_of_exec h, fun hacc => ?_, sinkWrites_of_exec h hi⟩
  cases effect_of_exec h with
  | tick hl => exact absurd hl (hi rfl)
  | idleTick | reset | init | deinit | start | stop | wrStatus | wrFreq | wrPhase | read | raise => simp [hacc]

/-- Events under which the values `L` of LIFE, RUNNING not among them, are closed complete silently, by induction on the
events. -/
theorem execAll_of_closed {L : Life → Prop} (hL : ¬ L .running) {es : List Instr} {s : State}
    (hes : ∀ i ∈ es, ∀ l, L l → L (nextLife i l)) (hs : L s.life) :
    ∃ t, execAll es s = .next t ∧ L t.life ∧ SilentFrom s t := by
  induction es generalizing s with
  | nil => exact ⟨s, execAll_nil s, hs, .refl s⟩
  | cons i es ih =>
    obtain ⟨hi, hes⟩ := List.forall_mem_cons.mp hes
    have hl : s.life ≠ .running := fun hl => hL (hl ▸ hs)
    obtain ⟨t, ht⟩ := exec_completes_of_ne_running hl i
    obtain ⟨u, hu, hlu, hsu⟩ := ih hes (s := t) (life_of_exec ht ▸ hi _ hs)
    exact ⟨u, (execAll_cons_of_next ht).trans hu, hlu, (silentFrom_exec ht fun _ => hl).trans hsu⟩

theorem execAll_of_uninit {s : State} {es : List Instr} (hl : s.life = .uninit) (hes : .cmdInit ∉ es) :
    ∃ t, execAll es s = .next t ∧ t.life = .uninit ∧ SilentFrom s t := by
  refine execAll_of_closed (L := (· = .uninit)) (by decide) ?_ hl
  rintro i hi _ rfl
  exact nextLife_uninit (ne_of_mem_of_not_mem hi hes)

theorem execAll_of_stopped {s : State} {es : List Instr} (hl : s.life = .stopped)
    (hes : ∀ i ∈ es, i ∉ [Instr.cmdStart, .cmdDeinit, .reset]) :
    ∃ t, execAll es s = .next t ∧ t.life = .stopped ∧ SilentFrom s t := by
  refine execAll_of_closed (L := (· = .stopped)) (by decide) ?_ hl
  rintro i hi _ rfl
  exact nextLife_stopped (hes i hi)

/-- Without a CMD_START a block that is not RUNNING does not produce. -/
theorem silentFrom_of_no_start {s t : State} {es : List Instr} (hl : s.life ≠ .running) (hes : .cmdStart ∉ es)
    (h : execAll es s = .next t) : SilentFrom s t := by
  obtain ⟨u, hu, -, hsu⟩ := execAll_of_closed (L := (· ≠ .running)) (fun hr => hr rfl)
    (fun i hi l => nextLife_ne_running (ne_of_mem_of_not_mem hi hes)) hl
  cases h.symm.trans hu
  exact hsu

/-! ## After a stop (R246) -/

/-- Settles O39: the stop leaves LIFE out of RUNNING, also where it answers E_NOTINIT, and no later event but a CMD_START
brings it there. -/
theorem noSampleAfterStopUntilStart : Obligations.NoSampleAfterStopUntilStart := by
  intro s t es hes h
  obtain ⟨u, hstop, hrun⟩ := execAll_cons_next h
  have hl : u.life ≠ .running := by
    rw [life_of_exec hstop]
    cases s.life <;> decide
  exact ((silentFrom_exec hstop (by simp)).trans (silentFrom_of_no_start hl hes hrun)).sink

/-! ## From UNINIT to the first sample (R250) -/

theorem exec_cmdInit_stops {s : State} (hl : s.life = .uninit) :
    ∃ t, exec .cmdInit s = .next t ∧ t.life = .stopped ∧ SilentFrom s t :=
  ⟨_, exec_cmdInit_of_uninit hl, rfl, silentFrom_exec (exec_cmdInit_of_uninit hl) (by simp)⟩

/-- A sample needs a CMD_INIT, for else LIFE stays UNINIT, and after the first CMD_INIT, which leaves the block STOPPED, a
CMD_START. -/
theorem init_then_start_of_sink_changed {s t : State} {es : List Instr} (hl : s.life = .uninit)
    (h : execAll es s = .next t) (hne : sinkWrites t.trace ≠ sinkWrites s.trace) :
    ∃ es1 es2 es3 : List Instr, es = es1 ++ .cmdInit :: (es2 ++ .cmdStart :: es3) := by
  have hinit : .cmdInit ∈ es := by
    by_contra hno
    obtain ⟨u, hu, -, hsu⟩ := execAll_of_uninit hl hno
    cases h.symm.trans hu
    exact hne hsu.sink
  obtain ⟨es1, rest, rfl, hes1⟩ := List.eq_append_cons_of_mem hinit
  obtain ⟨u, hu, hlu, hsu⟩ := execAll_of_uninit hl hes1
  obtain ⟨v, hv, hlv, huv⟩ := exec_cmdInit_stops hlu
  rw [execAll_append_of_next hu, execAll_cons_of_next hv] at h
  have hstart : .cmdStart ∈ rest := by
    by_contra hno
    exact hne ((hsu.trans huv).trans (silentFrom_of_no_start (by simp [hlv]) hno h)).sink
  obtain ⟨es2, es3, rfl⟩ := List.append_of_mem hstart
  exact ⟨es1, es2, es3, rfl⟩

/-- CMD_DEINIT and RESET, from every state (44_lifecycle.md R193, R196). -/
theorem exec_deinit_or_reset {i : Instr} (hi : i ∈ [Instr.cmdDeinit, .reset]) (s : State) :
    ∃ t, exec i s = .next t ∧ t.life = .uninit ∧ t.acc = 0 ∧ SilentFrom s t := by
  simp only [List.mem_cons, List.not_mem_nil, or_false] at hi
  obtain rfl | rfl := hi
  · exact ⟨_, rfl, rfl, rfl, silentFrom_exec (i := .cmdDeinit) rfl (by simp)⟩
  · exact ⟨_, rfl, rfl, rfl, silentFrom_exec (i := .reset) rfl (by simp)⟩

/-- INIT and then START, with other events before each, run an uninitialised block silently to RUNNING. -/
theorem execAll_init_then_start {s : State} {es1 es2 : List Instr} (hl : s.life = .uninit) (hes1 : .cmdInit ∉ es1)
    (hes2 : ∀ i ∈ es2, i ∉ [Instr.cmdStart, .cmdDeinit, .reset]) :
    ∃ t, execAll (es1 ++ .cmdInit :: (es2 ++ [.cmdStart])) s = .next t ∧ t.life = .running ∧ SilentFrom s t := by
  obtain ⟨u, hu, hlu, hsu⟩ := execAll_of_uninit hl hes1
  obtain ⟨v, hv, hlv, huv⟩ := exec_cmdInit_stops hlu
  obtain ⟨w, hw, hlw, hvw⟩ := execAll_of_stopped hlv hes2
  have hstart := exec_cmdStart_of_initialised (s := w) (by simp [hlw])
  refine ⟨_, ?_, rfl, ((hsu.trans huv).trans hvw).trans (silentFrom_exec hstart (by simp))⟩
  rw [execAll_append_of_next hu, execAll_cons_of_next hv, execAll_append_of_next hw, execAll_cons_of_next hstart,
    execAll_nil]

/-- Settles O41: ACC is 0 from the CMD_DEINIT or RESET on, so the first TICK in RUNNING samples phase 0. -/
theorem samplesNeedInitThenStart : Obligations.SamplesNeedInitThenStart := by
  refine ⟨fun s t es => init_then_start_of_sink_changed, fun i s hi => ?_,
    fun i s es1 es2 hc hi hes1 hstart hdeinit hreset => ?_⟩
  · obtain ⟨t, ht, hl, -, hst⟩ := exec_deinit_or_reset hi s
    exact ⟨t, ht, hl, hst.sink⟩
  · obtain ⟨t, ht, hlt, hacc, hst⟩ := exec_deinit_or_reset hi s
    have hes2 : ∀ j ∈ es2, j ∉ [Instr.cmdStart, .cmdDeinit, .reset] := by
      intro j hj
      simp [ne_of_mem_of_not_mem hj hstart, ne_of_mem_of_not_mem hj hdeinit, ne_of_mem_of_not_mem hj hreset]
    obtain ⟨u, hu, hlu, htu⟩ := execAll_init_then_start hlt hes1 hes2
    have hsu := hst.trans htu
    have hacc0 : u.acc = 0 := htu.acc hacc
    obtain ⟨va, vb, hva, -, htick⟩ := exec_tick_of_producing (s := u) ⟨hsu.cfg ▸ hc, by simp [hacc0], hlu⟩
    exact ⟨u, _, va, (execAll_cons_of_next ht).trans hu, hlu, hacc0, hsu.sink, by rwa [hsu.cfg, hacc0] at hva, htick, rfl⟩

end Sys2Proof.Machine
end
